-- ==== Sys2Proof/Word.lean ====
section
/-! DEFINITION. The word types of I2CM (00_scope.md R10): 8-bit bytes, 16-bit registers, the 32-bit combined
status word, and the keyed-list type that holds every sparse collection of the state. -/

namespace Sys2Proof

/-- A byte of caller memory or of the data register (R10, R40). -/
abbrev Byte := BitVec 8

/-- A 16-bit register value (R10, R36). -/
abbrev Half := BitVec 16

/-- The 32-bit combined status word (R10, R74). -/
abbrev Word32 := BitVec 32

/-- A finite map from natural-number keys, as a list of pairs; its canonical form is strictly rising keys. -/
abbrev KMap (α : Type) := List (Nat × α)

end Sys2Proof
end

