-- ==== Sys2Proof/Config.lean ====
section
/-! DEFINITION. The parameters of I2CM that the spec leaves OPEN (00_scope.md R9) and the values it fixes.
The OPEN parameters are one record, carried by every state and written by no step, so that a statement about
every state is a statement about every platform. -/

namespace Sys2Proof

/-- `MODE` (R9): interrupt-driven wait, or cooperative polling. -/
inductive Mode where
  | interrupt
  | polled
  deriving DecidableEq, Repr

/-- `FAST_DUTY` (R9): the low/high ratio of fast mode. -/
inductive FastDuty where
  | duty2
  | duty16_9
  deriving DecidableEq, Repr

/-- The per-bus parameters of R9: `BASE[b]` and `PIN_CONFLICT[b]`. -/
structure BusParam where
  base : Nat
  pinConflict : Bool
  deriving DecidableEq, Repr

/-- The OPEN parameters of R9. `buses` lists bus 1, 2, ..., so its length is `NBUS`. -/
structure Config where
  buses : List BusParam
  pclk : Nat
  mode : Mode
  fastDuty : FastDuty
  timeoSec : Nat
  timeoMs : Nat
  ticksPerSec : Nat
  timeoutTicks : Nat
  stopWaitTicks : Nat
  traceEn : Bool
  traceCap : Nat
  pclkMinOpen : Nat
  pclkMinFast : Nat
  deriving DecidableEq, Repr

namespace Config

/-- `NBUS` (R9). -/
def nbus (c : Config) : Nat := c.buses.length

/-- The parameters of bus number `b`, 1 ≤ b ≤ `NBUS` (R20). -/
def busParam? (c : Config) (b : Nat) : Option BusParam :=
  if b = 0 then none else c.buses[b - 1]?

/-- `PIN_CONFLICT[b]` (R9). -/
def pinConflict (c : Config) (b : Nat) : Bool :=
  match c.busParam? b with
  | some p => p.pinConflict
  | none => false

/-- The wait of "seconds+milliseconds, summed" in ticks times 1000 (R9, R109). -/
def timeoMilliTicks (c : Config) : Nat := (1000 * c.timeoSec + c.timeoMs) * c.ticksPerSec

/-- Two register windows of 0x24 bytes do not overlap (R71). -/
def windowsApart (p q : BusParam) : Bool := p.base + 0x24 ≤ q.base || q.base + 0x24 ≤ p.base

/-- The constraints R9, R71 and R79 put on the parameters: at least one bus, a positive tick rate and ring
capacity, `TIMEOUT_TICKS` between the two roundings, aligned and disjoint register windows. -/
def wf (c : Config) : Bool :=
  decide (1 ≤ c.nbus) && decide (1 ≤ c.ticksPerSec) && decide (1 ≤ c.traceCap)
    && decide (c.timeoMilliTicks / 1000 ≤ c.timeoutTicks)
    && decide (c.timeoutTicks ≤ (c.timeoMilliTicks + 999) / 1000)
    && c.buses.all (fun p => decide (p.base % 4 = 0))
    && decide (c.buses.Pairwise (fun p q => windowsApart p q = true))

/-- The platform `State.reset` is given: the common set-up of 95_test_vectors.md L3 (`NBUS` 2, interrupt mode,
36 MHz, `Duty2`, no pin conflict on bus 1, 50 and 10 ticks) with the suggested clock thresholds of R9.
DESIGN CHOICE (log entry 1): every one of these is OPEN in the spec; no statement over all states uses them. -/
def platform : Config where
  buses := [⟨0x40005400, false⟩, ⟨0x40005800, true⟩]
  pclk := 36000000
  mode := .interrupt
  fastDuty := .duty2
  timeoSec := 0
  timeoMs := 500
  ticksPerSec := 100
  timeoutTicks := 50
  stopWaitTicks := 10
  traceEn := true
  traceCap := 16
  pclkMinOpen := 2000000
  pclkMinFast := 4000000

end Config

/-- `DEFAULT_FREQ` (R9, D21). -/
def defaultFreq : Nat := 100000

/-- `ADDR10_PLACEHOLDER` (R9, D7). -/
def addr10Placeholder : Byte := 0x00#8

/-- The standard-mode boundary, fixed by the source (R9, §4.1). -/
def stdMaxHz : Nat := 100000

/-- The fast-mode ceiling, fixed by the source (R9, §4.1). -/
def fastMaxHz : Nat := 400000

end Sys2Proof
end

