-- ==== Sys2Proof/Syntax.lean ====
section
/-! DEFINITION. The operations of I2CM (00_scope.md R4), one constructor per row of spec/opcode_table.json:
8 host commands (format H), 8 message kinds (M), 13 TSM actions (S), 17 ORCH steps (O), 3 CLK modes (K). Handles
and pointers that may be `Null` are `Option Nat`. -/

namespace Sys2Proof

/-- A message (10_state.md R30): what a descriptor says. -/
structure Message where
  addr : Half
  flags : Half
  buffer : Option Nat
  length : Nat
  deriving DecidableEq, Repr

/-- The 49 operations. Formats S, O and K take their operands from the machine's state: the snapshot and cursor, the
transaction of the running thread, the frequency of its handle (30_encoding.md R100). In format M `rsv` holds
the reserved bits of `flags` (R102), which the kind does not fix. -/
inductive Instr where
  -- format H (R106)
  | openBus (bus : Int)
  | closeHandle (h : Option Nat)
  | setFreq (h : Option Nat) (hz : Nat)
  | setAddr (h : Option Nat) (address bits : Nat)
  | write (h buffer : Option Nat) (length : Int)
  | read (h buffer : Option Nat) (length : Int)
  | writeRead (h wbuffer : Option Nat) (wlen : Int) (rbuffer : Option Nat) (rlen : Int)
  | transfer (h messages : Option Nat) (count : Int)
  -- format M (R103)
  | msgW (addr rsv : Half) (buffer : Option Nat) (length : Nat)
  | msgR (addr rsv : Half) (buffer : Option Nat) (length : Nat)
  | msgWNr (addr rsv : Half) (buffer : Option Nat) (length : Nat)
  | msgRNr (addr rsv : Half) (buffer : Option Nat) (length : Nat)
  | msgWTen (addr rsv : Half) (buffer : Option Nat) (length : Nat)
  | msgRTen (addr rsv : Half) (buffer : Option Nat) (length : Nat)
  | msgWTenNr (addr rsv : Half) (buffer : Option Nat) (length : Nat)
  | msgRTenNr (addr rsv : Half) (buffer : Option Nat) (length : Nat)
  -- format S (R105)
  | evStart
  | evTx
  | evRxAddr
  | evRx
  | postBufEn
  | postBufDis
  | postBtf
  | postBtfSplice
  | postBtfRestart
  | postBtfStop
  | postBtfNone
  | postErr
  | postLatch
  -- format O (R200)
  | orchLock
  | orchXperiphOff
  | orchWaitStop
  | orchClrErr
  | orchClrReq
  | orchInstall
  | orchClk
  | orchStart
  | orchWait
  | orchTimeout
  | orchMask
  | orchClassify
  | orchBusyCheck
  | orchDump
  | orchWaitStop2
  | orchXperiphOn
  | orchUnlock
  -- format K (R110)
  | clkStd
  | clkFast2
  | clkFast16_9
  deriving DecidableEq, Repr

/-- The bits of `flags` that choose the kind of a message (R103): `M_READ`, `M_TEN`, `M_NORESTART`. -/
def kindMask : Half := 0x0083#16

/-- The reserved bits of `flags` (R102). -/
def reservedFlagMask : Half := 0xFF7C#16

/-- The message a format M operation encodes (R102, R103). -/
def Instr.message? : Instr → Option Message
  | .msgW a r b n => some ⟨a, r ||| 0x0000#16, b, n⟩
  | .msgR a r b n => some ⟨a, r ||| 0x0001#16, b, n⟩
  | .msgWNr a r b n => some ⟨a, r ||| 0x0080#16, b, n⟩
  | .msgRNr a r b n => some ⟨a, r ||| 0x0081#16, b, n⟩
  | .msgWTen a r b n => some ⟨a, r ||| 0x0002#16, b, n⟩
  | .msgRTen a r b n => some ⟨a, r ||| 0x0003#16, b, n⟩
  | .msgWTenNr a r b n => some ⟨a, r ||| 0x0082#16, b, n⟩
  | .msgRTenNr a r b n => some ⟨a, r ||| 0x0083#16, b, n⟩
  | .openBus _ | .closeHandle _ | .setFreq _ _ | .setAddr _ _ _ | .write _ _ _ | .read _ _ _
  | .writeRead _ _ _ _ _ | .transfer _ _ _
  | .evStart | .evTx | .evRxAddr | .evRx | .postBufEn | .postBufDis | .postBtf | .postBtfSplice
  | .postBtfRestart | .postBtfStop | .postBtfNone | .postErr | .postLatch
  | .orchLock | .orchXperiphOff | .orchWaitStop | .orchClrErr | .orchClrReq | .orchInstall | .orchClk
  | .orchStart | .orchWait | .orchTimeout | .orchMask | .orchClassify | .orchBusyCheck | .orchDump
  | .orchWaitStop2 | .orchXperiphOn | .orchUnlock
  | .clkStd | .clkFast2 | .clkFast16_9 => none

end Sys2Proof
end

