-- ==== Sys2Proof/Machine/Flags.lean ====
section
/-! DEFINITION. The register bits of I2CM and every flag computation of the spec: CR1 and CR2 fields (10_state.md
R37, R38), status flags (R41, R42), the combined status word (20_memory.md R74), the effect of writing SR1 (R47),
the interrupt request (60_exceptions.md R300), the error results and their classifier (R290 to R295). -/

namespace Sys2Proof.Machine

/-! ### Message flags (R102) -/

def M_READ : Half := 0x0001#16
def M_TEN : Half := 0x0002#16
def M_NORESTART : Half := 0x0080#16

/-! ### CR1 fields (R37) -/

def CR1_PE : Half := 0x0001#16
def CR1_START : Half := 0x0100#16
def CR1_STOP : Half := 0x0200#16
def CR1_ACK : Half := 0x0400#16
def CR1_PEC : Half := 0x1000#16

/-! ### CR2 fields (R38) -/

def CR2_ITERREN : Half := 0x0100#16
def CR2_ITEVTEN : Half := 0x0200#16
def CR2_ITBUFEN : Half := 0x0400#16

/-- `OAR1.ONE`, the fixed own-address bit (R39, R147). -/
def OAR1_ONE : Half := 0x4000#16

/-- CCR.FS and CCR.DUTY (R43). -/
def CCR_FS : Half := 0x8000#16
def CCR_DUTY : Half := 0x4000#16

/-! ### SR1 flags (R41) and SR2 flags (R42), at their place in the register -/

def SR1_SB : Half := 0x0001#16
def SR1_ADDR : Half := 0x0002#16
def SR1_BTF : Half := 0x0004#16
def SR1_ADD10 : Half := 0x0008#16
def SR1_STOPF : Half := 0x0010#16
def SR1_RXNE : Half := 0x0040#16
def SR1_TXE : Half := 0x0080#16
def SR1_BERR : Half := 0x0100#16
def SR1_ARLO : Half := 0x0200#16
def SR1_AF : Half := 0x0400#16
def SR1_OVR : Half := 0x0800#16
def SR1_PECERR : Half := 0x1000#16
def SR1_TIMEOUT : Half := 0x4000#16
def SR1_SMBALERT : Half := 0x8000#16
def SR2_MSL : Half := 0x0001#16
def SR2_BUSY : Half := 0x0002#16
def SR2_TRA : Half := 0x0004#16

/-- `ERRMASK`: the seven error flags of SR1 (R41). -/
def SR1_ERRORS : Half := 0xDF00#16

/-! ### The same flags in the 32-bit snapshot (R41, R42) -/

def S_SB : Word32 := 0x00000001#32
def S_ADDR : Word32 := 0x00000002#32
def S_BTF : Word32 := 0x00000004#32
def S_RXNE : Word32 := 0x00000040#32
def S_TXE : Word32 := 0x00000080#32
def S_BERR : Word32 := 0x00000100#32
def S_ARLO : Word32 := 0x00000200#32
def S_AF : Word32 := 0x00000400#32
def S_OVR : Word32 := 0x00000800#32
def S_PECERR : Word32 := 0x00001000#32
def S_TIMEOUT : Word32 := 0x00004000#32
def S_SMBALERT : Word32 := 0x00008000#32
def S_BUSY : Word32 := 0x00020000#32
def S_ERRORS : Word32 := 0x0000DF00#32

/-- `v & m != 0`: some bit of the mask is set (R105 `anyof`). -/
def anyBit {w : Nat} (v m : BitVec w) : Bool := v &&& m != 0#w

/-- `(v & ~clr) | set` (R73). -/
def modifyBits (v clr set : Half) : Half := (v &&& ~~~clr) ||| set

/-- The combined status word `zext_32(SR1) | (zext_32(SR2) << 16)` (R74). -/
def combine (sr1 sr2 : Half) : Word32 := sr1.zeroExtend 32 ||| (sr2.zeroExtend 32 <<< 16)

/-- The effect of `SR1 <- 0`: the seven error flags are cleared and nothing else (R47, R75). -/
def clearErrorFlags (sr1 : Half) : Half := sr1 &&& ~~~SR1_ERRORS

/-- The masked status of ORCH step 11 (R108, R221): the low 16 bits. -/
def maskStatus (st : Word32) : Word32 := st &&& 0x0000FFFF#32

/-- The interrupt request of a bus, a combinational function of CR2 and SR1 (R300): the event group, the buffer
group and the error group, each behind its enables. -/
def irqRequest (cr2 sr1 : Half) : Bool :=
  (anyBit cr2 CR2_ITEVTEN && anyBit sr1 0x001F#16)
    || (anyBit cr2 CR2_ITEVTEN && anyBit cr2 CR2_ITBUFEN && anyBit sr1 0x00C0#16)
    || (anyBit cr2 CR2_ITERREN && anyBit sr1 SR1_ERRORS)

/-- ErrorKind (R290). -/
inductive ErrorKind where
  | ok
  | invalidArgument
  | timeout
  | ioError
  | resourceBusy
  | noSuchDevice
  | protocolError
  | interrupted
  deriving DecidableEq, Repr

/-- The numeric code of an ErrorKind (R290). -/
def ErrorKind.code : ErrorKind → Nat
  | .ok => 0
  | .invalidArgument => 1
  | .timeout => 2
  | .ioError => 3
  | .resourceBusy => 4
  | .noSuchDevice => 5
  | .protocolError => 6
  | .interrupted => 7

/-- ORCH step 12: the first error flag set, in the fixed priority order (R291, R292); `ok` when none is. -/
def classifyErrors (st : Word32) : ErrorKind :=
  if anyBit st S_BERR then .ioError
  else if anyBit st S_ARLO then .resourceBusy
  else if anyBit st S_AF then .noSuchDevice
  else if anyBit st S_OVR then .ioError
  else if anyBit st S_PECERR then .protocolError
  else if anyBit st S_TIMEOUT then .timeout
  else if anyBit st S_SMBALERT then .interrupted
  else .ok

/-- ORCH step 13: with no error bit set, a latched BUSY is ResourceBusy; otherwise the result stands (R294). -/
def busyCheck (st : Word32) (r : ErrorKind) : ErrorKind :=
  if !anyBit st S_ERRORS && anyBit st S_BUSY then .resourceBusy else r

/-- CLS, the classifier: steps 12 and 13 one after the other (R222, R291). -/
def classify (st : Word32) : ErrorKind := busyCheck st (classifyErrors st)

end Sys2Proof.Machine
end

