-- ==== Sys2Proof/WellFormed.lean ====
section
/-! DEFINITION. Which terms of `Instr` an encoding exists for: every operand fits its field (30_encoding.md R101,
R102, R106; the width of a host command's operands is log entry 6). -/

namespace Sys2Proof

namespace WellFormed

/-- A natural operand fits an unsigned 32-bit field. -/
def nat32 (n : Nat) : Bool := decide (n < 4294967296)

/-- An integer operand fits a signed 32-bit field. -/
def int32 (i : Int) : Bool := decide (-2147483648 ≤ i) && decide (i < 2147483648)

/-- A handle fits a 32-bit field whose all-ones value stands for `Null` (log entry 6). -/
def handle (h : Option Nat) : Bool :=
  match h with
  | none => true
  | some k => decide (k < 4294967295)

/-- A pointer fits a 32-bit field whose zero stands for `Null` (R101; log entry 6). -/
def pointer (p : Option Nat) : Bool :=
  match p with
  | none => true
  | some a => decide (0 < a) && decide (a < 4294967296)

/-- `rsv` holds reserved flag bits only (R102). -/
def reservedOnly (rsv : Half) : Bool := rsv &&& kindMask == 0#16

/-- A message length is a non-negative signed 32-bit number (R101). -/
def length (n : Nat) : Bool := decide (n < 2147483648)

/-- The operands of a format M operation (R101, R102). -/
def descriptor (rsv : Half) (buffer : Option Nat) (n : Nat) : Bool :=
  reservedOnly rsv && pointer buffer && length n

end WellFormed

open WellFormed in
/-- An operation every operand of which fits its field. -/
def Instr.wf : Instr → Bool
  | .openBus b => int32 b
  | .closeHandle h => handle h
  | .setFreq h hz => handle h && nat32 hz
  | .setAddr h a n => handle h && nat32 a && nat32 n
  | .write h p n => handle h && pointer p && int32 n
  | .read h p n => handle h && pointer p && int32 n
  | .writeRead h wp wn rp rn => handle h && pointer wp && int32 wn && pointer rp && int32 rn
  | .transfer h p n => handle h && pointer p && int32 n
  | .msgW _ r p n => descriptor r p n
  | .msgR _ r p n => descriptor r p n
  | .msgWNr _ r p n => descriptor r p n
  | .msgRNr _ r p n => descriptor r p n
  | .msgWTen _ r p n => descriptor r p n
  | .msgRTen _ r p n => descriptor r p n
  | .msgWTenNr _ r p n => descriptor r p n
  | .msgRTenNr _ r p n => descriptor r p n
  | .evStart | .evTx | .evRxAddr | .evRx | .postBufEn | .postBufDis | .postBtf | .postBtfSplice
  | .postBtfRestart | .postBtfStop | .postBtfNone | .postErr | .postLatch => true
  | .orchLock | .orchXperiphOff | .orchWaitStop | .orchClrErr | .orchClrReq | .orchInstall | .orchClk
  | .orchStart | .orchWait | .orchTimeout | .orchMask | .orchClassify | .orchBusyCheck | .orchDump
  | .orchWaitStop2 | .orchXperiphOn | .orchUnlock => true
  | .clkStd | .clkFast2 | .clkFast16_9 => true

end Sys2Proof
end

