-- ==== Sys2Proof/Decode.lean ====
section
/-! DEFINITION. Decoding and encoding (30_encoding.md). I2CM has five operation formats, each dispatched on a value
of its own (R100): a host command on its code byte, a message on its `flags`, a TSM action on the snapshot and the
cursor, an ORCH step on its number, a CLK mode on the two top bits of the CCR value. `OpWord` is that value with
its format; `decode` is total on it and rejects by name; `encode` is written from the same tables. -/

namespace Sys2Proof

/-- Why a word is no operation. -/
inductive Reject where
  /-- an empty command -/
  | empty
  /-- a host command code 0x08 to 0xFF (R106, R112) -/
  | reservedCode
  /-- fewer bytes than the operands take -/
  | truncated
  /-- a descriptor with a negative length (R101, R112) -/
  | badLength
  /-- a step number outside 1 to 17 (R200) -/
  | reservedStep
  /-- CCR.FS = 0 with CCR.DUTY = 1, written by no CLK mode (R110) -/
  | reservedMode
  deriving DecidableEq, Repr

/-- How far a TSM invocation has got: the stages of R105 and R160, stage C's second half apart (R173). -/
inductive Stage where
  | a
  | b
  | c
  | sub
  | d
  | fin
  deriving DecidableEq, Repr

/-- What the dispatch of a TSM action reads (R105): the stage, whether `MODE = Interrupt`, the snapshot, and the cursor
as the earlier stages left it. `nextNoRestart` is `Msg[msgv].flags & M_NORESTART != 0`, read when `msgc > 0`. -/
structure DispatchKey where
  stage : Stage
  interrupt : Bool
  snap : Word32
  flags : Half
  dcnt : Int
  msgc : Int
  msgvNull : Bool
  nextNoRestart : Bool
  deriving DecidableEq, Repr

/-- The value an operation is dispatched on, with its format (R100). -/
inductive OpWord where
  | command (bytes : List Byte)
  | descriptor (bytes : List Byte)
  | action (key : DispatchKey)
  | step (n : Byte)
  | ccr (v : Half)
  deriving DecidableEq, Repr

/-! ### Bytes, little-endian (R78, R101) -/

/-- The two bytes of a 16-bit field. -/
def le16 (n : Nat) : List Byte := [BitVec.ofNat 8 n, BitVec.ofNat 8 (n / 256)]

/-- The four bytes of a 32-bit field. -/
def le32 (n : Nat) : List Byte :=
  [BitVec.ofNat 8 n, BitVec.ofNat 8 (n / 256), BitVec.ofNat 8 (n / 65536), BitVec.ofNat 8 (n / 16777216)]

/-- The value of a 16-bit field. -/
def fromLe16 (b0 b1 : Byte) : Nat := b0.toNat + 256 * b1.toNat

/-- The value of a 32-bit field. -/
def fromLe32 (b0 b1 b2 b3 : Byte) : Nat :=
  b0.toNat + 256 * b1.toNat + 65536 * b2.toNat + 16777216 * b3.toNat

/-- The 32-bit field of a signed operand. -/
def ofSigned (i : Int) : Nat := (i % 4294967296).toNat

/-- A 32-bit field read as a signed number. -/
def toSigned (n : Nat) : Int := if n < 2147483648 then (n : Int) else (n : Int) - 4294967296

/-- A pointer field: zero is `Null` (log entry 6). -/
def ofPointer (p : Option Nat) : Nat := p.getD 0

def toPointer (n : Nat) : Option Nat := if n = 0 then none else some n

/-- A handle field: all ones is `Null` (log entry 6). -/
def ofHandle (h : Option Nat) : Nat := h.getD 4294967295

def toHandle (n : Nat) : Option Nat := if n = 4294967295 then none else some n

/-- Read `k` 32-bit fields. -/
def words : Nat → List Byte → Option (List Nat)
  | 0, _ => some []
  | k + 1, b0 :: b1 :: b2 :: b3 :: r => (words k r).map (fromLe32 b0 b1 b2 b3 :: ·)
  | _ + 1, _ => none

/-! ### Format H (R106; the operand fields are log entry 6) -/

/-- The operands of a host command, from the 32-bit fields after its code. -/
def commandOf : Nat → List Nat → Except Reject Instr
  | 0x00, [b] => .ok (.openBus (toSigned b))
  | 0x01, [h] => .ok (.closeHandle (toHandle h))
  | 0x02, [h, hz] => .ok (.setFreq (toHandle h) hz)
  | 0x03, [h, a, n] => .ok (.setAddr (toHandle h) a n)
  | 0x04, [h, p, n] => .ok (.write (toHandle h) (toPointer p) (toSigned n))
  | 0x05, [h, p, n] => .ok (.read (toHandle h) (toPointer p) (toSigned n))
  | 0x06, [h, wp, wn, rp, rn] =>
      .ok (.writeRead (toHandle h) (toPointer wp) (toSigned wn) (toPointer rp) (toSigned rn))
  | 0x07, [h, p, n] => .ok (.transfer (toHandle h) (toPointer p) (toSigned n))
  | _, _ => .error .truncated

/-- How many 32-bit operands a command code takes (R106); `none` for a reserved code. -/
def operandCount : Nat → Option Nat
  | 0x00 => some 1
  | 0x01 => some 1
  | 0x02 => some 2
  | 0x03 => some 3
  | 0x04 => some 3
  | 0x05 => some 3
  | 0x06 => some 5
  | 0x07 => some 3
  | _ => none

/-- Decode a host command; bytes after its operands are not part of it. -/
def decodeCommand : List Byte → Except Reject Instr
  | [] => .error .empty
  | c :: r =>
    match operandCount c.toNat with
    | none => .error .reservedCode
    | some k =>
      match words k r with
      | none => .error .truncated
      | some ws => commandOf c.toNat ws

/-! ### Format M (R101 to R103) -/

/-- The operation a message is, by `flags & 0x0083` (R103). -/
def Message.instr (m : Message) : Instr :=
  let rsv := m.flags &&& reservedFlagMask
  match (m.flags &&& kindMask).toNat with
  | 0x00 => .msgW m.addr rsv m.buffer m.length
  | 0x01 => .msgR m.addr rsv m.buffer m.length
  | 0x80 => .msgWNr m.addr rsv m.buffer m.length
  | 0x81 => .msgRNr m.addr rsv m.buffer m.length
  | 0x02 => .msgWTen m.addr rsv m.buffer m.length
  | 0x03 => .msgRTen m.addr rsv m.buffer m.length
  | 0x82 => .msgWTenNr m.addr rsv m.buffer m.length
  | _ => .msgRTenNr m.addr rsv m.buffer m.length

/-- Read the twelve bytes of a descriptor (R101). -/
def descriptorOf : List Byte → Except Reject Message
  | a0 :: a1 :: f0 :: f1 :: b0 :: b1 :: b2 :: b3 :: l0 :: l1 :: l2 :: l3 :: _ =>
    let n := fromLe32 l0 l1 l2 l3
    if n < 2147483648 then
      .ok ⟨BitVec.ofNat 16 (fromLe16 a0 a1), BitVec.ofNat 16 (fromLe16 f0 f1),
        toPointer (fromLe32 b0 b1 b2 b3), n⟩
    else .error .badLength
  | _ => .error .truncated

/-- The twelve bytes of a message (R101). -/
def Message.bytes (m : Message) : List Byte :=
  le16 m.addr.toNat ++ le16 m.flags.toNat ++ le32 (ofPointer m.buffer) ++ le32 m.length

/-! ### Format S (R105, R160) -/

open Machine in
/-- Stage D and the end: the error action if an error flag is in the snapshot, else the latch. -/
def dispatchD (k : DispatchKey) : Instr := if anyBit k.snap S_ERRORS then .postErr else .postLatch

open Machine in
/-- Stage C and what follows it. -/
def dispatchC (k : DispatchKey) : Instr :=
  if decide (k.dcnt ≤ 0) && anyBit k.snap S_BTF then .postBtf else dispatchD k

/-- Stage B (`MODE = Interrupt` only) and what follows it. -/
def dispatchB (k : DispatchKey) : Instr :=
  if k.interrupt && decide (0 < k.dcnt) then .postBufEn
  else if k.interrupt && decide (k.dcnt = 0) then .postBufDis
  else dispatchC k

open Machine in
/-- Stage A, the first of A1 to A4 whose condition holds, and what follows it. -/
def dispatchA (k : DispatchKey) : Instr :=
  if anyBit k.snap S_SB then .evStart
  else if !anyBit k.flags M_READ && anyBit k.snap (S_ADDR ||| S_TXE) then .evTx
  else if anyBit k.flags M_READ && anyBit k.snap S_ADDR then .evRxAddr
  else if anyBit k.snap S_RXNE then .evRx
  else dispatchB k

/-- The branch of `POST.BTF` (R173). -/
def dispatchSub (k : DispatchKey) : Instr :=
  if 0 < k.msgc then (if k.nextNoRestart then .postBtfSplice else .postBtfRestart)
  else if k.msgvNull then .postBtfNone else .postBtfStop

/-- The next action of an invocation. -/
def decodeAction (k : DispatchKey) : Instr :=
  match k.stage with
  | .a => dispatchA k
  | .b => dispatchB k
  | .c => dispatchC k
  | .sub => dispatchSub k
  | .d => dispatchD k
  | .fin => .postLatch

/-! ### Format O (R200) and format K (R110) -/

/-- The ORCH step with a number; `none` outside 1 to 17. -/
def stepOf : Nat → Option Instr
  | 1 => some .orchLock
  | 2 => some .orchXperiphOff
  | 3 => some .orchWaitStop
  | 4 => some .orchClrErr
  | 5 => some .orchClrReq
  | 6 => some .orchInstall
  | 7 => some .orchClk
  | 8 => some .orchStart
  | 9 => some .orchWait
  | 10 => some .orchTimeout
  | 11 => some .orchMask
  | 12 => some .orchClassify
  | 13 => some .orchBusyCheck
  | 14 => some .orchDump
  | 15 => some .orchWaitStop2
  | 16 => some .orchXperiphOn
  | 17 => some .orchUnlock
  | _ => none

/-- Decode a step number under the table's mask 0x1F. -/
def decodeStep (n : Byte) : Except Reject Instr :=
  match stepOf (n &&& 0x1F#8).toNat with
  | some i => .ok i
  | none => .error .reservedStep

/-- Decode a CLK mode from bits 15:14 (FS, DUTY) of the CCR value it writes. -/
def decodeCcr (v : Half) : Except Reject Instr :=
  match (v &&& 0xC000#16).toNat with
  | 0x0000 => .ok .clkStd
  | 0x8000 => .ok .clkFast2
  | 0xC000 => .ok .clkFast16_9
  | _ => .error .reservedMode

/-- The decoder: total, rejecting by name. -/
def decode : OpWord → Except Reject Instr
  | .command bs => decodeCommand bs
  | .descriptor bs =>
    match descriptorOf bs with
    | .ok m => .ok m.instr
    | .error r => .error r
  | .action k => .ok (decodeAction k)
  | .step n => decodeStep n
  | .ccr v => decodeCcr v

/-! ### The encoder -/

/-- The code byte of a host command and its operand fields. -/
def commandWord (code : Nat) (ws : List Nat) : OpWord :=
  .command (BitVec.ofNat 8 code :: ws.flatMap le32)

/-- The word of a message of a kind (R103). -/
def descriptorWord (kind : Half) (a rsv : Half) (p : Option Nat) (n : Nat) : OpWord :=
  .descriptor (Message.bytes ⟨a, rsv ||| kind, p, n⟩)

/-- A dispatch value with an idle cursor; the encoder varies it. -/
def idleKey (st : Stage) (snap : Word32) : DispatchKey := ⟨st, true, snap, 0#16, 0, 0, true, false⟩

open Machine in
/-- The words of an operation. For format S: a dispatch value that meets the table's condition for the action. -/
def encode : Instr → OpWord
  | .openBus b => commandWord 0x00 [ofSigned b]
  | .closeHandle h => commandWord 0x01 [ofHandle h]
  | .setFreq h hz => commandWord 0x02 [ofHandle h, hz]
  | .setAddr h a n => commandWord 0x03 [ofHandle h, a, n]
  | .write h p n => commandWord 0x04 [ofHandle h, ofPointer p, ofSigned n]
  | .read h p n => commandWord 0x05 [ofHandle h, ofPointer p, ofSigned n]
  | .writeRead h wp wn rp rn =>
      commandWord 0x06 [ofHandle h, ofPointer wp, ofSigned wn, ofPointer rp, ofSigned rn]
  | .transfer h p n => commandWord 0x07 [ofHandle h, ofPointer p, ofSigned n]
  | .msgW a r p n => descriptorWord 0x0000#16 a r p n
  | .msgR a r p n => descriptorWord 0x0001#16 a r p n
  | .msgWNr a r p n => descriptorWord 0x0080#16 a r p n
  | .msgRNr a r p n => descriptorWord 0x0081#16 a r p n
  | .msgWTen a r p n => descriptorWord 0x0002#16 a r p n
  | .msgRTen a r p n => descriptorWord 0x0003#16 a r p n
  | .msgWTenNr a r p n => descriptorWord 0x0082#16 a r p n
  | .msgRTenNr a r p n => descriptorWord 0x0083#16 a r p n
  | .evStart => .action (idleKey .a S_SB)
  | .evTx => .action (idleKey .a (S_ADDR ||| S_TXE))
  | .evRxAddr => .action { idleKey .a S_ADDR with flags := M_READ }
  | .evRx => .action { idleKey .a S_RXNE with flags := M_READ }
  | .postBufEn => .action { idleKey .b 0#32 with dcnt := 1 }
  | .postBufDis => .action (idleKey .b 0#32)
  | .postBtf => .action (idleKey .c S_BTF)
  | .postBtfSplice => .action { idleKey .sub S_BTF with msgc := 1, msgvNull := false, nextNoRestart := true }
  | .postBtfRestart => .action { idleKey .sub S_BTF with msgc := 1, msgvNull := false }
  | .postBtfStop => .action { idleKey .sub S_BTF with msgvNull := false }
  | .postBtfNone => .action (idleKey .sub S_BTF)
  | .postErr => .action (idleKey .d S_ERRORS)
  | .postLatch => .action (idleKey .fin 0#32)
  | .orchLock => .step 1#8
  | .orchXperiphOff => .step 2#8
  | .orchWaitStop => .step 3#8
  | .orchClrErr => .step 4#8
  | .orchClrReq => .step 5#8
  | .orchInstall => .step 6#8
  | .orchClk => .step 7#8
  | .orchStart => .step 8#8
  | .orchWait => .step 9#8
  | .orchTimeout => .step 10#8
  | .orchMask => .step 11#8
  | .orchClassify => .step 12#8
  | .orchBusyCheck => .step 13#8
  | .orchDump => .step 14#8
  | .orchWaitStop2 => .step 15#8
  | .orchXperiphOn => .step 16#8
  | .orchUnlock => .step 17#8
  | .clkStd => .ccr 0x0000#16
  | .clkFast2 => .ccr 0x8000#16
  | .clkFast16_9 => .ccr 0xC000#16

/-! ### The words of spec/opcode_table.json

The table gives a row only the value its format dispatches on, not the format, and rows of different formats share
values (0x01 is CLOSE, MSG.R, EV.START and ORCH.LOCK). Log entry 12: which format a bare table word is read in. -/

/-- The bytes of a table word, zeros above it, up to the longest host command (21 bytes). -/
def leBytes : Nat → Nat → List Byte
  | 0, _ => []
  | k + 1, w => BitVec.ofNat 8 w :: leBytes k (w / 256)

open Machine in
/-- The dispatch value a format S table word stands for: the snapshot is the word, the stage and the cursor are
those of the row whose match value it is. -/
def tableKey (w : Nat) : DispatchKey :=
  let s := BitVec.ofNat 32 w
  match w with
  | 0x02 => { idleKey .a s with flags := M_READ }
  | 0x40 => { idleKey .a s with flags := M_READ }
  | 0x04 => idleKey .c s
  | 0xDF00 => idleKey .d s
  | 0x00 => idleKey .fin s
  | _ => idleKey .a s

/-- The descriptor whose `flags` are the table word, the other fields zero. -/
def tableDescriptor (w : Nat) : OpWord := .descriptor (Message.bytes ⟨0#16, BitVec.ofNat 16 w, none, 0⟩)

/-- The kind bits alone, one of the eight M match values. -/
def isKindWord (w : Nat) : Bool := w % 128 < 4 && w < 256

/-- A table word with its format. -/
def tableWord (nbits w : Nat) : OpWord :=
  if nbits ≤ 8 then
    if w < 8 then .command (leBytes 21 w)
    else if w = 0x40 then .action (tableKey w)
    else if isKindWord w then tableDescriptor w
    else if (stepOf (w % 32)).isSome then .step (BitVec.ofNat 8 w)
    else .command (leBytes 21 w)
  else if nbits ≤ 16 then
    if w % 16384 = 0 then .ccr (BitVec.ofNat 16 w)
    else if w = 0xDF00 then .action (tableKey w)
    else if isKindWord w then tableDescriptor w
    else .step (BitVec.ofNat 8 w)
  else if nbits ≤ 24 then .step (BitVec.ofNat 8 w)
  else .action (tableKey w)

/-- The instruction the decoder reads from a word of spec/opcode_table.json. -/
def decodeTableWord (nbits w : Nat) : Option Instr :=
  match decode (tableWord nbits w) with
  | .ok i => some i
  | .error _ => none

end Sys2Proof
end

