-- ==== Sys2Proof/Machine/State.lean ====
section
/-! DEFINITION. The state of I2CM as plain data (10_state.md R20 to R52): per bus the Bus Controller State and its
register file, per caller thread the transaction it is executing, the live Instance Handles, caller memory, the
global state, and the inputs still to come. Below it the reasons a step can stop, and the state after reset. -/

namespace Sys2Proof.Machine

/-- A message pointer (R25, R77): a descriptor address in caller memory, or a place in the list that WRITE, READ and
WRITEREAD build in storage owned by the call (R247), held as the messages from there on. -/
inductive MsgPtr where
  | mem (addr : Nat)
  | call (rest : List Message)
  deriving DecidableEq, Repr

/-- The bus lock (R23): free, or held by a thread. -/
inductive Lock where
  | free
  | held (t : Nat)
  deriving DecidableEq, Repr

/-- The handshake flag (R24). -/
inductive Handshake where
  | idle
  | waiting
  | done
  deriving DecidableEq, Repr

/-- The event tags of the trace (R271). -/
inductive TraceTag where
  | none
  | start
  | phase
  | send
  | itbufen
  | recv
  | restart
  | stop
  deriving DecidableEq, Repr

/-- A trace entry (R270). -/
structure TraceEntry where
  st : Word32
  isr : Nat
  tag : TraceTag
  param : Int
  deriving DecidableEq, Repr

/-- A TSM invocation in progress (R160, R303): its one snapshot and the stage it has reached. -/
structure Invocation where
  snap : Word32
  stage : Stage
  deriving DecidableEq, Repr

/-- One bus: the Bus Controller State (R20) and the register file (R36). `dr` is the byte a read of DR returns (R40),
`txLog` the line engine's record of the bytes delivered to it (R45 L3); `irqAttached` and `irqEnabled` are the
bus's line at the interrupt controller (R302). -/
structure Bus where
  base : Nat
  refs : Nat
  lock : Lock
  waiters : List Nat
  hs : Handshake
  msgv : Option MsgPtr
  msgc : Int
  dcnt : Int
  ptr : Option Nat
  flags : Half
  status : Word32
  sig : Nat
  trLog : List TraceEntry
  trIsr : Nat
  cr1 : Half
  cr2 : Half
  oar1 : Half
  oar2 : Half
  dr : Byte
  sr1 : Half
  sr2 : Half
  ccr : Half
  trise : Half
  txLog : List Byte
  irqAttached : Bool
  irqEnabled : Bool
  inv : Option Invocation
  deriving DecidableEq, Repr

/-- An Instance Handle (R31). -/
structure Handle where
  bus : Nat
  frequency : Nat
  address : Half
  iflags : Half
  deriving DecidableEq, Repr

/-- How the wait of step 9 ended (R215). -/
inductive WaitOutcome where
  | completed
  | timedOut
  deriving DecidableEq, Repr

/-- Where a thread is inside step 9 (R211 to R219): before arming, blocked in `Wait` with its deadline, or in the
polled loop with its start time. -/
inductive WaitPhase where
  | fresh
  | blocked (deadline : Nat)
  | polling (t0 : Nat)
  deriving DecidableEq, Repr

/-- One execution of ORCH (R200): its operands, its step number, and the locals of its steps. -/
structure Txn where
  handle : Nat
  bus : Nat
  messages : MsgPtr
  count : Int
  step : Nat
  savedX : Bool
  stopT0 : Option Nat
  wait : WaitPhase
  outcome : Option WaitOutcome
  st : Word32
  result : ErrorKind
  deriving DecidableEq, Repr

/-- What a host command returns (R106): an ErrorKind, or OPEN's handle. -/
inductive Ret where
  | kind (k : ErrorKind)
  | handle (h : Nat)
  deriving DecidableEq, Repr

/-- A caller thread (R83, R307): the transaction it is inside, if any, and what its last command returned. -/
structure Thread where
  txn : Option Txn
  ret : Option Ret
  deriving DecidableEq, Repr

/-- Who is executing (R83): a caller thread, or the interrupt context of a bus. -/
inductive Agent where
  | thread (t : Nat)
  | isr (b : Nat)
  deriving DecidableEq, Repr

/-- One item of the diagnostic sink (R50, R276): the debug lines of steps 3, 15 and 10, and the dump of step 14. -/
inductive SinkItem where
  | stopPending (b : Nat)
  | timedOut (b : Nat) (cr1 : Half) (st : Word32)
  | dump (b : Nat) (ring : List TraceEntry)
  deriving DecidableEq, Repr

/-- A move of the environment: the line engine of a bus within its liberties L1 to L3 (R45), the tick source (R312), a
caller storing a byte of its own memory (R91), an agent outside I2CM writing `xperiph_en` (R315). -/
inductive EnvMove where
  | setSr1 (b : Nat) (v : Half)
  | setSr2 (b : Nat) (v : Half)
  | clearCr1 (b : Nat) (m : Half)
  | receive (b : Nat) (v : Byte)
  | tick
  | store (a : Nat) (v : Byte)
  | setXperiph (v : Bool)
  deriving DecidableEq, Repr

/-- One input: which agent moves next, and the choices the spec leaves open to it. `issue`: an idle thread issues a
host command. `run`: a thread takes its next step; `intr` lets `Wait` answer `Interrupted` (R217), `pick` chooses
the blocked thread that acquires next (R88), `dropAck` lets the line engine clear ACK while CLK holds PE = 0 (R45
L2). `irq`: the interrupt context of a bus takes its next step. -/
inductive Event where
  | env (m : EnvMove)
  | issue (t : Nat) (cmd : List Byte)
  | run (t : Nat) (intr : Bool) (pick : Nat) (dropAck : Bool)
  | irq (b : Nat)
  deriving DecidableEq, Repr

/-- The whole machine. `cur`, `intr`, `pick` and `dropAck` are the running agent and the open choices of the step being
taken; `sched` is the inputs still to come, the next one first. -/
structure State where
  cfg : Config
  buses : KMap Bus
  handles : KMap Handle
  nextHandle : Nat
  threads : KMap Thread
  mem : List Host.Cell
  now : Nat
  xperiphEn : Bool
  sink : List SinkItem
  cur : Agent
  intr : Bool
  pick : Nat
  dropAck : Bool
  sched : List Event
  deriving DecidableEq, Repr

/-- Why the machine stops with a fault: the `fault(reason)` of 60_exceptions.md R298, each one behaviour the spec
declares undefined. All are safe: the spec gives no later behaviour. -/
inductive Fault where
  /-- A programmer-error precondition of a transaction command or a Null handle (R253); raised by host commands. Safe. -/
  | assertion
  /-- A negative length, a misaligned descriptor pointer, or a message pointer that names no message (R79, R101, R253);
  raised by the transaction commands and by the descriptor fetch. Safe. -/
  | badDescriptor
  /-- A buffer access through Null (R76); raised by EV.TX and EV.RX. Safe. -/
  | nullBuffer
  /-- A register access at an offset that is no register (R36, R79); raised by the register port. Safe. -/
  | unmappedRegister
  /-- A register access that is not 16 bits wide (R72); raised by the register port. Safe. -/
  | badRegisterWidth
  /-- A write of a non-zero value to SR1 (R75); raised by the register port. Safe. -/
  | badSr1Write
  /-- A frequency, divider or rise time outside CLK's contract (R151); raised by ORCH.CLK and the CLK modes. Safe. -/
  | clkOutOfContract
  /-- START-sent with no message to start (R161); raised by EV.START. Safe. -/
  | startWithoutMessage
  /-- A read of caller memory that nothing has written (R52); raised by EV.TX and by the descriptor fetch. Safe. -/
  | unwrittenState
  deriving DecidableEq, Repr

/-- Why the machine refuses to go on. All are safe: the machine stops where the spec gives no meaning. -/
inductive Refusal where
  /-- The instruction has no meaning yet; raised by `exec` only. Safe. -/
  | notModelled (mnemonic : String)
  /-- A command on a handle that is not live (R254), or step 7 on a handle closed meanwhile; raised by the host commands
  that take a handle and by CLK. Safe. -/
  | deadHandle
  /-- A host command whose bytes are no command of this model's layout (log entry 6); raised by `step`. Safe. -/
  | malformedCommand
  /-- An ORCH step, a CLK mode or a host command outside thread context (R307); never raised by `step`. Safe. -/
  | notAThread
  /-- A host command on a thread that is still inside one (R240); never raised by `step`. Safe. -/
  | commandInProgress
  /-- An ORCH step or a CLK mode outside a transaction (R200); never raised by `step`. Safe. -/
  | noTransaction
  /-- A TSM action or a message outside an invocation (R160); never raised by `step`. Safe. -/
  | noInvocation
  /-- The running agent's bus is none of 1..NBUS; no state a run reaches names one (R20). Safe. -/
  | noBus
  /-- A transaction whose step number is none of 1 to 17 (R200); no state a run reaches holds one. Safe. -/
  | noStep
  deriving DecidableEq, Repr

/-- The three outcomes of a step of this machine. -/
abbrev Out := Host.Outcome State Fault Refusal

/-- A thread inside no command. -/
def Thread.fresh : Thread := ⟨none, none⟩

/-- Every register of a bus at its reset value (R52); the rest of the Bus Controller State stays (R342). -/
def Bus.resetRegs (x : Bus) : Bus :=
  { x with cr1 := 0x0000#16, cr2 := 0x0000#16, oar1 := 0x0000#16, oar2 := 0x0000#16, dr := 0x00#8,
           sr1 := 0x0000#16, sr2 := 0x0000#16, ccr := 0x0000#16, trise := 0x0002#16 }

/-- A bus right after reset (R52, R340). `msgc`, `dcnt`, `ptr`, `flags` and `status`, unspecified there, are zero or
Null. DESIGN CHOICE (log entry 4). -/
def Bus.reset (p : BusParam) : Bus where
  base := p.base
  refs := 0
  lock := .free
  waiters := []
  hs := .idle
  msgv := none
  msgc := 0
  dcnt := 0
  ptr := none
  flags := 0x0000#16
  status := 0x00000000#32
  sig := 0
  trLog := []
  trIsr := 0
  cr1 := 0x0000#16
  cr2 := 0x0000#16
  oar1 := 0x0000#16
  oar2 := 0x0000#16
  dr := 0x00#8
  sr1 := 0x0000#16
  sr2 := 0x0000#16
  ccr := 0x0000#16
  trise := 0x0002#16
  txLog := []
  irqAttached := false
  irqEnabled := false
  inv := none

/-- The buses of a platform, numbered from `n` on. -/
def resetBuses : Nat → List BusParam → KMap Bus
  | _, [] => []
  | n, p :: ps => (n, Bus.reset p) :: resetBuses (n + 1) ps

/-- The machine right after reset on a platform (R340): every bus reset and unpowered, no handle, no thread inside a
command, nothing written in caller memory, time 0, no input yet. `xperiph_en`, owned by the platform, is false.
DESIGN CHOICE (log entry 4). -/
def State.resetWith (c : Config) : State where
  cfg := c
  buses := resetBuses 1 c.buses
  handles := []
  nextHandle := 0
  threads := []
  mem := []
  now := 0
  xperiphEn := false
  sink := []
  cur := .thread 0
  intr := false
  pick := 0
  dropAck := false
  sched := []

/-- The machine right after reset (R340), on the platform of log entry 1. -/
def State.reset : State := State.resetWith Config.platform

end Sys2Proof.Machine
end

