-- ==== Sys2Proof/Machine/Map.lean ====
section
/-! DEFINITION. Keyed lists in one canonical form: strictly rising keys. Caller memory (20_memory.md R76), the buses, the
handles and the threads are such lists. Nothing is listed for memory that nothing has written. -/

namespace Sys2Proof.Machine

/-- The value of a key, if it is listed. -/
def kget {α : Type} : KMap α → Nat → Option α
  | [], _ => none
  | (k, v) :: r, q => if k = q then some v else kget r q

/-- Set the value of a key, at its place in rising order. -/
def kput {α : Type} : KMap α → Nat → α → KMap α
  | [], q, w => [(q, w)]
  | (k, v) :: r, q, w =>
    if q < k then (q, w) :: (k, v) :: r
    else if k = q then (q, w) :: r
    else (k, v) :: kput r q w

/-- Remove a key. -/
def kdel {α : Type} : KMap α → Nat → KMap α
  | [], _ => []
  | (k, v) :: r, q => if k = q then kdel r q else (k, v) :: kdel r q

/-- Every key of the list is above `q`. -/
def kabove {α : Type} (q : Nat) : KMap α → Bool
  | [] => true
  | (k, _) :: r => decide (q < k) && kabove q r

/-- The canonical form: strictly rising keys. -/
def ksorted {α : Type} : KMap α → Bool
  | [] => true
  | (k, _) :: r => kabove k r && ksorted r

/-- Caller memory in its canonical form (R76). -/
def Memory.wf (m : List Host.Cell) : Bool := ksorted m

/-- The byte at an address of caller memory; reading one that nothing has written is a fault (R52, R76). -/
def memRead (m : List Host.Cell) (a : Nat) : Except Fault Byte :=
  match kget m a with
  | some v => .ok v
  | none => .error .unwrittenState

/-- Store a byte of caller memory (R76). -/
def memWrite (m : List Host.Cell) (a : Nat) (v : Byte) : List Host.Cell := kput m a v

end Sys2Proof.Machine
end

