-- ==== Sys2Proof/Machine/Operands.lean ====
section
/-! DEFINITION. Every operand form of I2CM: message pointers and descriptor fetches (20_memory.md R77, R79, R91;
30_encoding.md R101), the address byte (R104), the messages a host command builds (R107, R115; 43_host_operations.md
R247 to R251), and the preconditions on its operands (R253). -/

namespace Sys2Proof.Machine

/-- `p + 1`: the next descriptor of the list (R77, R101). -/
def MsgPtr.next : MsgPtr → MsgPtr
  | .mem a => .mem (a + 12)
  | .call rest => .call rest.tail

/-- `n` bytes of caller memory from an address on. -/
def readBytes (m : List Host.Cell) (a : Nat) : Nat → Except Fault (List Byte)
  | 0 => .ok []
  | n + 1 =>
    match memRead m a with
    | .error f => .error f
    | .ok v =>
      match readBytes m (a + 1) n with
      | .error f => .error f
      | .ok vs => .ok (v :: vs)

/-- The message a descriptor's twelve bytes hold; a negative length is `fault(bad_descriptor)` (R101). -/
def messageOfBytes (bs : List Byte) : Except Fault Message :=
  match descriptorOf bs with
  | .ok m => .ok m
  | .error _ => .error .badDescriptor

/-- `Msg[p]` (R77, R91): the descriptor in memory at the moment of the fetch; a misaligned pointer is
`fault(bad_descriptor)` (R79), whatever memory holds there (log entry 21). -/
def fetchMessage (m : List Host.Cell) : MsgPtr → Except Fault Message
  | .mem a =>
    if a % 4 ≠ 0 then .error .badDescriptor
    else
      match readBytes m a 12 with
      | .error f => .error f
      | .ok bs => messageOfBytes bs
  | .call (x :: _) => .ok x
  | .call [] => .error .badDescriptor

/-- `Msg[p].flags`, the one field read ahead when a message ends (R77, R173). -/
def fetchFlags (m : List Host.Cell) : MsgPtr → Except Fault Half
  | .mem a =>
    if a % 4 ≠ 0 then .error .badDescriptor
    else
      match readBytes m (a + 2) 2 with
      | .error f => .error f
      | .ok bs =>
        match bs with
        | [f0, f1] => .ok (BitVec.ofNat 16 (fromLe16 f0 f1))
        | _ => .error .badDescriptor
  | .call (x :: _) => .ok x.flags
  | .call [] => .error .badDescriptor

/-- `Msg[msgv]` through a pointer that may be Null. -/
def fetchCursor {α : Type} (f : MsgPtr → Except Fault α) : Option MsgPtr → Except Fault α
  | some p => f p
  | none => .error .badDescriptor

/-- A message is a read (R102). -/
def isRead (flags : Half) : Bool := anyBit flags M_READ

/-- A message is addressed with ten bits (R102). -/
def isTen (flags : Half) : Bool := anyBit flags M_TEN

/-- A message is spliced onto the one before it (R102). -/
def isNoRestart (flags : Half) : Bool := anyBit flags M_NORESTART

/-- The byte written to DR at START-sent (R104, R163): `trunc_8((addr << 1) | (flags & M_READ))`, or the placeholder
for a ten-bit message. -/
def addressByte (m : Message) : Byte :=
  if isTen m.flags then addr10Placeholder
  else ((m.addr <<< 1) ||| (m.flags &&& M_READ)).setWidth 8

/-- The sign of WRITEREAD's `rlen` is the no-restart flag (R107). -/
def rlenNoRestart (rlen : Int) : Bool := decide (rlen < 0)

/-- The magnitude of WRITEREAD's `rlen` is the length (R107). -/
def rlenLength (rlen : Int) : Nat := rlen.natAbs

/-- The message of WRITE (R247). -/
def writeMessage (h : Handle) (buffer : Option Nat) (length : Int) : Message :=
  ⟨h.address, h.iflags, buffer, length.toNat⟩

/-- The message of READ (R248). -/
def readMessage (h : Handle) (buffer : Option Nat) (length : Int) : Message :=
  ⟨h.address, h.iflags ||| M_READ, buffer, length.toNat⟩

/-- The second message of WRITEREAD (R249, R250). -/
def secondMessage (h : Handle) (rbuffer : Option Nat) (rlen : Int) : Message :=
  ⟨h.address, if rlenNoRestart rlen then h.iflags ||| M_READ ||| M_NORESTART else h.iflags ||| M_READ,
    rbuffer, rlenLength rlen⟩

/-- The messages of WRITEREAD: with `rlen = 0` there is no second one (R251). -/
def writeReadMessages (h : Handle) (wbuffer : Option Nat) (wlen : Int) (rbuffer : Option Nat) (rlen : Int) :
    List Message :=
  if rlen = 0 then [writeMessage h wbuffer wlen]
  else [writeMessage h wbuffer wlen, secondMessage h rbuffer rlen]

/-- The precondition of a buffer operand with its length (R253): not Null when the length is positive, and the length
not negative. -/
def bufferFault (buffer : Option Nat) (length : Int) : Option Fault :=
  if 0 < length ∧ buffer = none then some .assertion
  else if length < 0 then some .badDescriptor
  else none

/-- The preconditions of WRITEREAD (R253), assertions before the length (log entry 10). -/
def writeReadFault (wbuffer : Option Nat) (wlen : Int) (rbuffer : Option Nat) (rlen : Int) : Option Fault :=
  if 0 < wlen ∧ wbuffer = none then some .assertion
  else if rlen ≠ 0 ∧ rbuffer = none then some .assertion
  else if wlen < 0 then some .badDescriptor
  else none

/-- The preconditions of TRANSFER (R252, R253). -/
def transferFault (messages : Option Nat) (count : Int) : Option Fault :=
  if messages = none ∨ count < 1 then some .assertion else none

end Sys2Proof.Machine
end

