-- ==== Sys2Proof/Machine/Ops.lean ====
section
/-! DEFINITION. The operations the meanings share: the register port (20_memory.md R72 to R75), the state's accessors,
the lock (R88), the trace (44_trace.md R272 to R275), the message cursor (41_transfer_state_machine.md R162 to R164,
R174), waking the waiter (R176, R179), power-up and power-down (43_host_operations.md R241, R243), taking the
interrupt and returning from it (60_exceptions.md R303, R306), and the environment's moves (10_state.md R45). -/

namespace Sys2Proof.Machine

/-! ### The register port -/

/-- The nine registers of a bus (R36). -/
inductive Reg where
  | cr1
  | cr2
  | oar1
  | oar2
  | dr
  | sr1
  | sr2
  | ccr
  | trise
  deriving DecidableEq, Repr

/-- The offset of a register (R36). -/
def Reg.offset : Reg → Nat
  | .cr1 => 0x00
  | .cr2 => 0x04
  | .oar1 => 0x08
  | .oar2 => 0x0C
  | .dr => 0x10
  | .sr1 => 0x14
  | .sr2 => 0x18
  | .ccr => 0x1C
  | .trise => 0x20

/-- The register at an offset; every other offset is no register (R36). -/
def Reg.ofOffset? : Nat → Option Reg
  | 0x00 => some .cr1
  | 0x04 => some .cr2
  | 0x08 => some .oar1
  | 0x0C => some .oar2
  | 0x10 => some .dr
  | 0x14 => some .sr1
  | 0x18 => some .sr2
  | 0x1C => some .ccr
  | 0x20 => some .trise
  | _ => none

/-- The current value of a register (R72); a read of DR gives the byte received, with zeros above (R40, R75c). -/
def Bus.readReg (x : Bus) : Reg → Half
  | .cr1 => x.cr1
  | .cr2 => x.cr2
  | .oar1 => x.oar1
  | .oar2 => x.oar2
  | .dr => x.dr.zeroExtend 16
  | .sr1 => x.sr1
  | .sr2 => x.sr2
  | .ccr => x.ccr
  | .trise => x.trise

/-- Write a register (R72): SR1 clears the error flags (R75a), DR delivers a byte to the line engine (R75b), the others
store the value. -/
def Bus.writeReg (x : Bus) (r : Reg) (v : Half) : Bus :=
  match r with
  | .cr1 => { x with cr1 := v }
  | .cr2 => { x with cr2 := v }
  | .oar1 => { x with oar1 := v }
  | .oar2 => { x with oar2 := v }
  | .dr => { x with txLog := x.txLog ++ [v.setWidth 8] }
  | .sr1 => { x with sr1 := clearErrorFlags x.sr1 }
  | .sr2 => { x with sr2 := v }
  | .ccr => { x with ccr := v }
  | .trise => { x with trise := v }

/-- `RegModify16`, one indivisible step (R73). -/
def Bus.modifyReg (x : Bus) (r : Reg) (clr set : Half) : Bus :=
  x.writeReg r (modifyBits (x.readReg r) clr set)

/-- The address of a register (R36, R72). -/
def Bus.regAddress (x : Bus) (r : Reg) : Nat := x.base + r.offset

/-- A register access of `width` bits at an offset (R72, R79). An access that is wrong in both is reported as
`bad_register_width`. DESIGN CHOICE, safe (log entry 28). -/
def regAt (off width : Nat) : Except Fault Reg :=
  if width ≠ 16 then .error .badRegisterWidth
  else
    match Reg.ofOffset? off with
    | none => .error .unmappedRegister
    | some r => .ok r

/-- `RegRead16` as the port sees it (R72). -/
def Bus.portRead (x : Bus) (off width : Nat) : Except Fault Half :=
  match regAt off width with
  | .error f => .error f
  | .ok r => .ok (x.readReg r)

/-- `RegWrite16` as the port sees it (R72); only 0 may be written to SR1 (R75). -/
def Bus.portWrite (x : Bus) (off width : Nat) (v : Half) : Except Fault Bus :=
  match regAt off width with
  | .error f => .error f
  | .ok r => if r = .sr1 ∧ v ≠ 0#16 then .error .badSr1Write else .ok (x.writeReg r v)

/-- `RegModify16` as the port sees it (R73). -/
def Bus.portModify (x : Bus) (off width : Nat) (clr set : Half) : Except Fault Bus :=
  match x.portRead off width with
  | .error f => .error f
  | .ok v => x.portWrite off width (modifyBits v clr set)

/-- `ReadStatus` (R74): SR1, then SR2, as one step. -/
def Bus.readStatus (x : Bus) : Word32 := combine (x.readReg .sr1) (x.readReg .sr2)

/-! ### The state's accessors -/

/-- The bus numbered `b`, if there is one. -/
def State.bus? (s : State) (b : Nat) : Option Bus := kget s.buses b

/-- Replace a bus. -/
def State.putBus (s : State) (b : Nat) (x : Bus) : State := { s with buses := kput s.buses b x }

/-- A caller thread; one that has done nothing is inside no command. -/
def State.thread (s : State) (t : Nat) : Thread := (kget s.threads t).getD Thread.fresh

/-- Replace a thread. -/
def State.putThread (s : State) (t : Nat) (y : Thread) : State := { s with threads := kput s.threads t y }

/-- Put a thread inside a transaction, or move it on in the one it is in. -/
def State.putTxn (s : State) (t : Nat) (x : Txn) : State := s.putThread t { s.thread t with txn := some x }

/-- End a thread's command with a result (R290). -/
def State.putRet (s : State) (t : Nat) (r : Ret) : State := s.putThread t ⟨none, some r⟩

/-- `raise <ErrorKind>` and `return Ok` (R290): the command ends, nothing else is recorded. -/
def State.raise (s : State) (t : Nat) (k : ErrorKind) : State := s.putRet t (.kind k)

/-- Append to the diagnostic sink (R50). -/
def State.emit (s : State) (i : SinkItem) : State := { s with sink := s.sink ++ [i] }

/-- The live handle with an identity (R254). -/
def State.handle? (s : State) (h : Nat) : Option Handle := kget s.handles h

/-- Whether `MODE = Interrupt`. -/
def State.interruptMode (s : State) : Bool := decide (s.cfg.mode = .interrupt)

/-- `powered(b)` (R22). -/
def Bus.powered (x : Bus) : Bool := decide (0 < x.refs)

/-! ### Contexts (R307) -/

/-- Run on the calling thread, which is inside no command. -/
def withCaller (s : State) (k : Nat → Out) : Out :=
  match s.cur with
  | .isr _ => .refused .notAThread
  | .thread t =>
    match (s.thread t).txn with
    | some _ => .refused .commandInProgress
    | none => k t

/-- Run on a live handle (R253, R254): Null violates an assertion, a dead one has no defined behaviour. The handle is
tested before every other operand. DESIGN CHOICE (log entry 31). -/
def withHandle (s : State) (h : Option Nat) (k : Nat → Handle → Out) : Out :=
  match h with
  | none => .fault .assertion
  | some n =>
    match s.handle? n with
    | none => .refused .deadHandle
    | some d => k n d

/-- Run in the transaction of the running thread, on its bus (R200). The step number is not tested, nor whether an
invocation is in progress: an ORCH step out of its turn has its own effect all the same; step never runs one. DESIGN
CHOICE, unsafe (log entry 32). -/
def withTxn (s : State) (k : Nat → Txn → Bus → Out) : Out :=
  match s.cur with
  | .isr _ => .refused .notAThread
  | .thread t =>
    match (s.thread t).txn with
    | none => .refused .noTransaction
    | some x =>
      match s.bus? x.bus with
      | none => .refused .noBus
      | some y => k t x y

/-- The bus the running agent works on: the interrupt context's own, or that of the thread's transaction. -/
def State.curBus (s : State) : Option Nat :=
  match s.cur with
  | .isr b => some b
  | .thread t => (s.thread t).txn.map (·.bus)

/-- Run in the invocation in progress on the running agent's bus (R160, R307). The stage, the snapshot and the cursor are
not tested: an action or message they do not select (30_encoding.md R105) has its own effect all the same; step never
runs one. DESIGN CHOICE, unsafe (log entry 32). -/
def withInvocation (s : State) (k : Nat → Bus → Invocation → Out) : Out :=
  match s.curBus with
  | none => .refused .noInvocation
  | some b =>
    match s.bus? b with
    | none => .refused .noBus
    | some x =>
      match x.inv with
      | none => .refused .noInvocation
      | some v => k b x v

/-- Go on with a value, or stop with its fault. -/
def orFault {α : Type} (r : Except Fault α) (k : α → Out) : Out :=
  match r with
  | .ok a => k a
  | .error f => .fault f

/-- Go on from a next state. -/
def andThen (o : Out) (k : State → Out) : Out :=
  match o with
  | .next s => k s
  | .fault f => .fault f
  | .refused r => .refused r

/-! ### The bus lock (R88) -/

/-- `Acquire` by a thread: take a free lock; otherwise join the blocked threads. -/
def Bus.acquire (x : Bus) (t : Nat) : Bus :=
  { x with
    lock := if x.lock = .free then .held t else x.lock
    waiters := if x.lock = .free ∨ x.lock = .held t ∨ t ∈ x.waiters then x.waiters else x.waiters ++ [t] }

/-- The blocked thread that acquires next: the spec leaves the choice open (D27), `pick` makes it. -/
def chooseWaiter (ws : List Nat) (pick : Nat) : Option Nat := ws[pick % ws.length]?

/-- `Release`: the lock is free, and if threads are blocked one of them acquires. -/
def Bus.release (x : Bus) (pick : Nat) : Bus :=
  { x with
    lock := match chooseWaiter x.waiters pick with
      | none => .free
      | some u => .held u
    waiters := match chooseWaiter x.waiters pick with
      | none => x.waiters
      | some u => x.waiters.filter (· ≠ u) }

/-! ### The trace (44_trace.md); every rule of it is a no-op unless `TRACE_EN` -/

/-- `Trace(tag, param)` with the invocation's snapshot (R272). -/
def Bus.trace (x : Bus) (on : Bool) (snap : Word32) (tag : TraceTag) (param : Int) : Bus :=
  { x with trLog := if on then x.trLog ++ [⟨snap, x.trIsr, tag, param⟩] else x.trLog }

/-- The invocation counter (R273). -/
def Bus.countInvocation (x : Bus) (on : Bool) : Bus := { x with trIsr := if on then x.trIsr + 1 else x.trIsr }

/-- Reset at the start of every transaction (R275). -/
def Bus.resetTrace (x : Bus) (on : Bool) : Bus :=
  { x with trLog := if on then [] else x.trLog, trIsr := if on then 0 else x.trIsr }

/-- The ring: the last `min(|tr_log|, TRACE_CAP)` entries, oldest first (R274). -/
def ring (cap : Nat) (log : List TraceEntry) : List TraceEntry := log.drop (log.length - cap)

/-- The write cursor of the ring (R270). -/
def ringCursor (cap : Nat) (log : List TraceEntry) : Nat := log.length % cap

/-- The numeric code of a tag (R271). -/
def TraceTag.code : TraceTag → Nat
  | .none => 0
  | .start => 1
  | .phase => 2
  | .send => 3
  | .itbufen => 4
  | .recv => 5
  | .restart => 6
  | .stop => 7

/-! ### The cursor -/

/-- Load the cursor from a message (R162, R174). -/
def Bus.loadCursor (x : Bus) (m : Message) : Bus :=
  { x with ptr := m.buffer, dcnt := (m.length : Int), flags := m.flags }

/-- Advance past the message started: one descriptor (R35, R162, R174). -/
def Bus.advanceCursor (x : Bus) : Bus := { x with msgv := x.msgv.map MsgPtr.next, msgc := x.msgc - 1 }

/-- The ACK pre-arm: a read of more than one byte (R164). -/
def Bus.preArmAck (x : Bus) : Bus :=
  { x with cr1 := if 1 < x.dcnt ∧ isRead x.flags then modifyBits x.cr1 0x0000#16 CR1_ACK else x.cr1 }

/-- Start a message after START-sent: load, address byte, ACK pre-arm, advance (R162 to R164). -/
def Bus.startMessage (x : Bus) (m : Message) : Bus :=
  (((x.loadCursor m).writeReg .dr ((addressByte m).zeroExtend 16)).preArmAck).advanceCursor

/-- Set or clear CR2.ITBUFEN in `MODE = Interrupt` (R171, R172, R174). -/
def Bus.setItbufen (x : Bus) (interrupt on : Bool) : Bus :=
  { x with cr2 := if interrupt then
                    (if on then modifyBits x.cr2 0x0000#16 CR2_ITBUFEN else modifyBits x.cr2 CR2_ITBUFEN 0x0000#16)
                  else x.cr2 }

/-- Splice a message: reload, advance, re-enable buffer interrupts; no START, no address byte, no ACK pre-arm (R174). -/
def Bus.spliceMessage (x : Bus) (interrupt : Bool) (m : Message) : Bus :=
  ((x.loadCursor m).advanceCursor).setItbufen interrupt true

/-- `ptr + 1` (R165, R168). -/
def Bus.advancePtr (x : Bus) : Bus := { x with ptr := x.ptr.map (· + 1) }

/-- Wake a parked waiter (R176, R179): `Post` in `MODE = Interrupt`, then `Done`; nothing unless `hs = Waiting`. -/
def Bus.wake (x : Bus) (interrupt : Bool) : Bus :=
  { x with
    sig := if x.hs = .waiting ∧ interrupt then x.sig + 1 else x.sig
    hs := if x.hs = .waiting then .done else x.hs }

/-- Move the invocation to a stage. -/
def Bus.toStage (x : Bus) (st : Stage) : Bus := { x with inv := x.inv.map (fun v => { v with stage := st }) }

/-! ### The interrupt: taking it and returning from it -/

/-- The line of the bus is asserted: a function of CR2 and SR1 (R300). -/
def Bus.irq (x : Bus) : Bool := irqRequest x.cr2 x.sr1

/-- An invocation may be taken (R303): the request is asserted, the bus is powered and its line attached and enabled
at the interrupt controller, and no invocation is in progress. -/
def Bus.irqEnabledNow (x : Bus) : Bool :=
  x.irq && x.powered && x.irqAttached && x.irqEnabled && x.inv.isNone

/-- Entry (R160, R305): the status is read once, the invocation counted, stage A comes next; nothing is saved. -/
def Bus.enterInvocation (x : Bus) (traceOn : Bool) : Bus :=
  { x.countInvocation traceOn with inv := some ⟨x.readStatus, .a⟩ }

/-- Return (R181, R306): the snapshot is latched and the invocation is over; nothing is restored. -/
def Bus.leaveInvocation (x : Bus) (v : Invocation) : Bus := { x with status := v.snap, inv := none }

/-! ### Power (R241, R243, R317) -/

/-- `PowerUp`: registers reset, PE set, and in `MODE = Interrupt` the line attached and enabled. -/
def Bus.powerUp (x : Bus) (interrupt : Bool) : Bus :=
  { x.resetRegs.modifyReg .cr1 0x0000#16 CR1_PE with
    irqAttached := interrupt || x.irqAttached, irqEnabled := interrupt || x.irqEnabled }

/-- `PowerDown`: in `MODE = Interrupt` the line disabled and detached; then registers reset. -/
def Bus.powerDown (x : Bus) (interrupt : Bool) : Bus :=
  { x with
    irqAttached := !interrupt && x.irqAttached, irqEnabled := !interrupt && x.irqEnabled }.resetRegs

/-! ### The transaction -/

/-- The step after step `n` (R200): 2, 15 and 16 only with a pin conflict, 10 or 11 by the outcome of step 9. -/
def nextStep (conflict : Bool) (o : Option WaitOutcome) : Nat → Nat
  | 1 => if conflict then 2 else 3
  | 9 => if o = some .timedOut then 10 else 11
  | 10 => 14
  | 14 => if conflict then 15 else 17
  | n => n + 1

/-- The transaction moved past step `n`. -/
def State.past (s : State) (x : Txn) (n : Nat) : Txn :=
  { x with step := nextStep (s.cfg.pinConflict x.bus) x.outcome n }

/-- `Execute(h, messages, N)` entered at step 1 (R200). -/
def Txn.start (h : Nat) (d : Handle) (p : MsgPtr) (n : Int) : Txn where
  handle := h
  bus := d.bus
  messages := p
  count := n
  step := 1
  savedX := false
  stopT0 := none
  wait := .fresh
  outcome := none
  st := 0x00000000#32
  result := .ok

/-- Run TRANSFER's expansion on the calling thread (R252): unless a precondition is violated, before any lock is taken
and any register written (R253). -/
def enterExecute (s : State) (t h : Nat) (d : Handle) (p : MsgPtr) (n : Int) (violated : Option Fault) : Out :=
  match violated with
  | some f => .fault f
  | none => .next (s.putTxn t (Txn.start h d p n))

/-! ### The environment (R45, R91, R312, R315) -/

/-- The CR1 bits the line engine may clear: START, STOP, PEC, and ACK while PE = 0 (R45 L2). -/
def clearableCr1 (cr1 : Half) : Half :=
  CR1_START ||| CR1_STOP ||| CR1_PEC ||| (if anyBit cr1 CR1_PE then 0x0000#16 else CR1_ACK)

/-- The line engine clears those bits of a mask that it may clear. -/
def Bus.lineClear (x : Bus) (m : Half) : Bus := { x with cr1 := x.cr1 &&& ~~~(m &&& clearableCr1 x.cr1) }

/-- Change a bus if it exists. -/
def State.modifyBus (s : State) (b : Nat) (f : Bus → Bus) : State :=
  match s.bus? b with
  | some x => s.putBus b (f x)
  | none => s

/-- One move of the environment. -/
def State.applyEnv (s : State) : EnvMove → State
  | .setSr1 b v => s.modifyBus b (fun x => { x with sr1 := v })
  | .setSr2 b v => s.modifyBus b (fun x => { x with sr2 := v })
  | .clearCr1 b m => s.modifyBus b (fun x => x.lineClear m)
  | .receive b v => s.modifyBus b (fun x => { x with dr := v })
  | .tick => { s with now := s.now + 1 }
  | .store a v => { s with mem := memWrite s.mem a v }
  | .setXperiph v => { s with xperiphEn := v }

end Sys2Proof.Machine
end

