-- ==== Sys2Proof/Machine/Clk.lean ====
section
/-! DEFINITION. CLK, the clock divider and rise-time configurator (40_clock_config.md R140 to R152). The operand `f` is
the frequency of the transaction's handle. -/

namespace Sys2Proof.Machine

/-- What a CLK mode computes: the divider, the rise time, and CCR's FS and DUTY bits. -/
structure Timing where
  div : Nat
  trise : Nat
  modeBits : Half
  deriving DecidableEq, Repr

/-- Standard mode (R142). -/
def Timing.std (pclk f : Nat) : Timing := ⟨max 4 (pclk / (2 * f)), pclk / 1000000 + 1, 0x0000#16⟩

/-- Fast mode, low/high ratio 2/1 (R143). -/
def Timing.fast2 (pclk f : Nat) : Timing :=
  ⟨max 1 (pclk / (3 * f)), pclk / 1000000 * 300 / 1000 + 1, CCR_FS⟩

/-- Fast mode, low/high ratio 16/9 (R144). -/
def Timing.fast16_9 (pclk f : Nat) : Timing :=
  ⟨max 1 (pclk / (25 * f)), pclk / 1000000 * 300 / 1000 + 1, CCR_FS ||| CCR_DUTY⟩

/-- The CCR value of a timing (R142 to R145). -/
def Timing.ccr (tm : Timing) : Half := tm.modeBits ||| BitVec.ofNat 16 tm.div

/-- The inputs CLK is defined for (R151). -/
def inContract (f : Nat) (tm : Timing) : Bool :=
  decide (0 < f) && decide (f ≤ fastMaxHz) && decide (tm.div ≤ 4095) && decide (tm.trise ≤ 63)

/-- CR1 across CLK: PE is cleared (R141) and its captured value restored (R148), the other bits as they are then. While
PE is 0 the line engine may clear ACK (10_state.md R45 L2, R48 WB10), which `dropAck` decides (log entry 3). -/
def clkCr1 (cr1 : Half) (dropAck : Bool) : Half :=
  let off := modifyBits cr1 CR1_PE 0x0000#16
  modifyBits (if dropAck then off &&& ~~~CR1_ACK else off) CR1_PE (cr1 &&& CR1_PE)

/-- The register writes of CLK (R141, R145 to R148): PE cleared; CCR, TRISE, OAR1 written whole; PE restored. -/
def Bus.programClock (x : Bus) (tm : Timing) (dropAck : Bool) : Bus :=
  { x with cr1 := clkCr1 x.cr1 dropAck, ccr := tm.ccr, trise := BitVec.ofNat 16 tm.trise, oar1 := OAR1_ONE }

/-- Run CLK in one mode for the running transaction (R140); outside the contract it has no meaning (R151). A mode that
the frequency and `FAST_DUTY` do not select (R110) runs its own formulas all the same; step 7 never runs one. DESIGN
CHOICE, unsafe (log entry 29). -/
def runClk (mode : Nat → Nat → Timing) (s : State) : Out :=
  withTxn s fun _ x y =>
    match s.handle? x.handle with
    | none => .refused .deadHandle
    | some d =>
      let tm := mode s.cfg.pclk d.frequency
      if inContract d.frequency tm then .next (s.putBus x.bus (y.programClock tm s.dropAck))
      else .fault .clkOutOfContract

/-- CLK.STD (R142). -/
def execClkStd (s : State) : Out := runClk Timing.std s

/-- CLK.FAST2 (R143). -/
def execClkFast2 (s : State) : Out := runClk Timing.fast2 s

/-- CLK.FAST16_9 (R144). -/
def execClkFast16_9 (s : State) : Out := runClk Timing.fast16_9 s

/-- The mode a frequency selects (R110); `none` for 0 and above 400 kHz. -/
def selectMode (f : Nat) (duty : FastDuty) : Option Instr :=
  if f = 0 then none
  else if f ≤ stdMaxHz then some .clkStd
  else if f ≤ fastMaxHz then
    match duty with
    | .duty2 => some .clkFast2
    | .duty16_9 => some .clkFast16_9
  else none

/-- `CLK(b, f)` (R140): the mode `f` and `FAST_DUTY` select. -/
def clk (s : State) : Out :=
  withTxn s fun _ x _ =>
    match s.handle? x.handle with
    | none => .refused .deadHandle
    | some d =>
      match selectMode d.frequency s.cfg.fastDuty with
      | some .clkStd => execClkStd s
      | some .clkFast2 => execClkFast2 s
      | some .clkFast16_9 => execClkFast16_9 s
      | _ => .fault .clkOutOfContract

end Sys2Proof.Machine
end

