-- ==== Sys2Proof/Machine/Commands.lean ====
section
/-! DEFINITION. The eight host commands (43_host_operations.md R240 to R257). Each runs on the calling thread; the four
transaction commands enter ORCH at step 1 and return at step 17. -/

namespace Sys2Proof.Machine

/-- OPEN's critical section and the new handle (R89, R241). -/
def State.openOn (s : State) (t b : Nat) (x : Bus) : State :=
  let y := if x.refs = 0 then x.powerUp s.interruptMode else x
  let s1 := s.putBus b { y with refs := y.refs + 1 }
  let s2 := { s1 with handles := kput s1.handles s1.nextHandle ⟨b, defaultFreq, 0x0000#16, 0x0000#16⟩,
                      nextHandle := s1.nextHandle + 1 }
  s2.putRet t (.handle s.nextHandle)

/-- OPEN (R241, R242). -/
def execOpenBus (bus : Int) (s : State) : Out :=
  withCaller s fun t =>
    if bus < 1 ∨ (s.cfg.nbus : Int) < bus then .next (s.raise t .invalidArgument)
    else if s.cfg.pclk < s.cfg.pclkMinOpen then .next (s.raise t .invalidArgument)
    else
      match s.bus? bus.toNat with
      | none => .refused .noBus
      | some x => .next (s.openOn t bus.toNat x)

/-- CLOSE's critical section and the destroyed handle (R89, R243). -/
def State.closeOn (s : State) (t h b : Nat) (x : Bus) : State :=
  let y := { x with refs := x.refs - 1 }
  let z := if y.refs = 0 then y.powerDown s.interruptMode else y
  let s1 := s.putBus b z
  let s2 := { s1 with handles := kdel s1.handles h }
  s2.raise t .ok

/-- CLOSE (R243, R254). It is executed also while another thread is inside a transaction of the same handle, which the
spec excludes. DESIGN CHOICE, unsafe (log entry 30). -/
def execCloseHandle (h : Option Nat) (s : State) : Out :=
  withCaller s fun t =>
    withHandle s h fun n d =>
      match s.bus? d.bus with
      | none => .refused .noBus
      | some x => .next (s.closeOn t n d.bus x)

/-- Replace a live handle. -/
def State.putHandle (s : State) (h : Nat) (d : Handle) : State := { s with handles := kput s.handles h d }

/-- The frequency SETFREQ stores: clamped to 100 kHz when the peripheral clock is too slow (R244). -/
def storedFreq (c : Config) (hz : Nat) : Nat := if c.pclk < c.pclkMinFast then min hz stdMaxHz else hz

/-- SETFREQ (R244, R245); with a Null or dead handle it stops whatever `hz` is (log entry 31). -/
def execSetFreq (h : Option Nat) (hz : Nat) (s : State) : Out :=
  withCaller s fun t =>
    withHandle s h fun n d =>
      if hz = 0 then .next (s.raise t .invalidArgument)
      else .next ((s.putHandle n { d with frequency := storedFreq s.cfg hz }).raise t .ok)

/-- SETADDR (R246, R257); with a Null or dead handle it stops whatever `bits` is (log entry 31). -/
def execSetAddr (h : Option Nat) (address bits : Nat) (s : State) : Out :=
  withCaller s fun t =>
    withHandle s h fun n d =>
      if bits ≠ 7 ∧ bits ≠ 10 then .next (s.raise t .invalidArgument)
      else
        .next ((s.putHandle n { d with address := BitVec.ofNat 16 address,
                                       iflags := if bits = 10 then M_TEN else 0x0000#16 }).raise t .ok)

/-- WRITE (R247). -/
def execWrite (h buffer : Option Nat) (length : Int) (s : State) : Out :=
  withCaller s fun t =>
    withHandle s h fun n d =>
      enterExecute s t n d (.call [writeMessage d buffer length]) 1 (bufferFault buffer length)

/-- READ (R248). -/
def execRead (h buffer : Option Nat) (length : Int) (s : State) : Out :=
  withCaller s fun t =>
    withHandle s h fun n d =>
      enterExecute s t n d (.call [readMessage d buffer length]) 1 (bufferFault buffer length)

/-- WRITEREAD (R249 to R251). -/
def execWriteRead (h wbuffer : Option Nat) (wlen : Int) (rbuffer : Option Nat) (rlen : Int) (s : State) : Out :=
  withCaller s fun t =>
    withHandle s h fun n d =>
      let ms := writeReadMessages d wbuffer wlen rbuffer rlen
      enterExecute s t n d (.call ms) (ms.length : Int) (writeReadFault wbuffer wlen rbuffer rlen)

/-- TRANSFER (R252). -/
def execTransfer (h messages : Option Nat) (count : Int) (s : State) : Out :=
  withCaller s fun t =>
    withHandle s h fun n d =>
      enterExecute s t n d (.mem (messages.getD 0)) count (transferFault messages count)

end Sys2Proof.Machine
end

