-- ==== Sys2Proof/Machine/Messages.lean ====
section
/-! DEFINITION. The eight message kinds (30_encoding.md R103), the sequencer's instructions. Executing a message is
taking it up: a START, its address byte and the ACK pre-arm at START-sent (41_transfer_state_machine.md R162 to R164),
or, for a no-restart message at the end of the one before it, the splice (R174). Its bytes are then moved by EV.TX and
EV.RX. A ten-bit message sends the placeholder and the rules then apply unchanged (R112, R163; log entry 9). -/

namespace Sys2Proof.Machine

/-- Take up a message that START begins (R162 to R164, R183a, R183b). -/
def takeUp (m : Message) (s : State) : Out :=
  withInvocation s fun b x _ => .next (s.putBus b (x.startMessage m))

/-- Take up a no-restart message: spliced when it follows another (R174, R183c); begun by START when it is the first of
its transaction, or when START-sent finds it (R102, R161). -/
def takeUpNoRestart (m : Message) (s : State) : Out :=
  withInvocation s fun b x v =>
    if v.stage = .sub then .next (s.putBus b (x.spliceMessage s.interruptMode m))
    else .next (s.putBus b (x.startMessage m))

/-- MSG.W (R103, R162 to R165). -/
def execMsgW (addr rsv : Half) (buffer : Option Nat) (length : Nat) (s : State) : Out :=
  takeUp ⟨addr, rsv ||| 0x0000#16, buffer, length⟩ s

/-- MSG.R (R103, R162 to R164, R168). -/
def execMsgR (addr rsv : Half) (buffer : Option Nat) (length : Nat) (s : State) : Out :=
  takeUp ⟨addr, rsv ||| 0x0001#16, buffer, length⟩ s

/-- MSG.W.NR (R103, R174). -/
def execMsgWNr (addr rsv : Half) (buffer : Option Nat) (length : Nat) (s : State) : Out :=
  takeUpNoRestart ⟨addr, rsv ||| 0x0080#16, buffer, length⟩ s

/-- MSG.R.NR (R103, R174). -/
def execMsgRNr (addr rsv : Half) (buffer : Option Nat) (length : Nat) (s : State) : Out :=
  takeUpNoRestart ⟨addr, rsv ||| 0x0081#16, buffer, length⟩ s

/-- MSG.W.TEN (R103, R163). -/
def execMsgWTen (addr rsv : Half) (buffer : Option Nat) (length : Nat) (s : State) : Out :=
  takeUp ⟨addr, rsv ||| 0x0002#16, buffer, length⟩ s

/-- MSG.R.TEN (R103, R163). -/
def execMsgRTen (addr rsv : Half) (buffer : Option Nat) (length : Nat) (s : State) : Out :=
  takeUp ⟨addr, rsv ||| 0x0003#16, buffer, length⟩ s

/-- MSG.W.TEN.NR (R103, R163, R174). -/
def execMsgWTenNr (addr rsv : Half) (buffer : Option Nat) (length : Nat) (s : State) : Out :=
  takeUpNoRestart ⟨addr, rsv ||| 0x0082#16, buffer, length⟩ s

/-- MSG.R.TEN.NR (R103, R163, R174). -/
def execMsgRTenNr (addr rsv : Half) (buffer : Option Nat) (length : Nat) (s : State) : Out :=
  takeUpNoRestart ⟨addr, rsv ||| 0x0083#16, buffer, length⟩ s

end Sys2Proof.Machine
end

