-- ==== Sys2Proof/Machine/Orch.lean ====
section
/-! DEFINITION. ORCH, the transaction orchestrator: the seventeen steps (42_transaction_orchestrator.md R200 to R228),
each on the transaction of the running thread and each moving it to the step that comes next. A step that waits (1, 3,
9, 15) takes one machine step per attempt and stays until it may go on. -/

namespace Sys2Proof.Machine

/-- Step 1, ORCH.LOCK (R201): go on as the holder, else stay blocked. -/
def execOrchLock (s : State) : Out :=
  withTxn s fun t x y =>
    let z := y.acquire t
    if z.lock = .held t then .next ((s.putBus x.bus z).putTxn t (s.past x 1))
    else .next (s.putBus x.bus z)

/-- Step 2, ORCH.XPERIPH_OFF (R202). -/
def execOrchXperiphOff (s : State) : Out :=
  withTxn s fun t x _ =>
    if s.cfg.pinConflict x.bus then
      .next ({ s with xperiphEn := false }.putTxn t { s.past x 2 with savedX := s.xperiphEn })
    else .next (s.putTxn t (s.past x 2))

/-- `WaitStop` (R203), one poll: go on when CR1.STOP is 0; give up with a debug line when the time-out is over; else
poll again. -/
def waitStop (s : State) (t : Nat) (x : Txn) (y : Bus) (n : Nat) : Out :=
  let t0 := x.stopT0.getD s.now
  if anyBit (y.readReg .cr1) CR1_STOP then
    if s.cfg.stopWaitTicks ≤ s.now - t0 then
      .next ((s.emit (.stopPending x.bus)).putTxn t { s.past x n with stopT0 := none })
    else .next (s.putTxn t { x with stopT0 := some t0 })
  else .next (s.putTxn t { s.past x n with stopT0 := none })

/-- Step 3, ORCH.WAITSTOP (R203). -/
def execOrchWaitStop (s : State) : Out := withTxn s fun t x y => waitStop s t x y 3

/-- Step 4, ORCH.CLRERR (R204). -/
def execOrchClrErr (s : State) : Out :=
  withTxn s fun t x y => .next ((s.putBus x.bus (y.writeReg .sr1 0x0000#16)).putTxn t (s.past x 4))

/-- Step 5, ORCH.CLRREQ (R205). -/
def execOrchClrReq (s : State) : Out :=
  withTxn s fun t x y =>
    .next ((s.putBus x.bus (y.modifyReg .cr1 (CR1_START ||| CR1_STOP ||| CR1_PEC) 0x0000#16)).putTxn t (s.past x 5))

/-- Install the list in the cursor (R206). -/
def Bus.install (y : Bus) (p : MsgPtr) (n : Int) : Bus :=
  { y with msgv := some p, msgc := n, ptr := none, dcnt := 0, flags := 0x0000#16 }

/-- Step 6, ORCH.INSTALL (R206, R207). -/
def execOrchInstall (s : State) : Out :=
  withTxn s fun t x y =>
    .next ((s.putBus x.bus ((y.install x.messages x.count).resetTrace s.cfg.traceEn)).putTxn t (s.past x 6))

/-- Step 7, ORCH.CLK (R208). -/
def execOrchClk (s : State) : Out :=
  withTxn s fun t x _ => andThen (clk s) fun s' => .next (s'.putTxn t (s.past x 7))

/-- Step 8, ORCH.START (R209, R210). -/
def execOrchStart (s : State) : Out :=
  withTxn s fun t x y =>
    .next ((s.putBus x.bus ({ y with status := 0x00000000#32 }.modifyReg .cr1 0x0000#16 CR1_START)).putTxn t
      (s.past x 8))

/-- Arm and mark in `MODE = Interrupt` (R211, R212), one step. -/
def Bus.armAndMark (y : Bus) : Bus :=
  { y.modifyReg .cr2 0x0000#16 (CR2_ITERREN ||| CR2_ITEVTEN) with hs := .waiting }

/-- After the wait, in either mode (R219): `hs` is Idle, and in `MODE = Interrupt` the three enables are cleared. -/
def Bus.disarm (y : Bus) (interrupt : Bool) : Bus :=
  { y with
    hs := .idle
    cr2 := if interrupt then modifyBits y.cr2 (CR2_ITERREN ||| CR2_ITEVTEN ||| CR2_ITBUFEN) 0x0000#16 else y.cr2 }

/-- The wait is over with an outcome (R213 to R215, R219). -/
def endWait (s : State) (t : Nat) (x : Txn) (y : Bus) (o : WaitOutcome) : Out :=
  .next ((s.putBus x.bus (y.disarm s.interruptMode)).putTxn t
    { s.past { x with outcome := some o } 9 with wait := .fresh })

/-- The thread has been woken, by a post or benignly: it rechecks `hs` and goes on only if it is Done (R213). -/
def recheck (s : State) (t : Nat) (x : Txn) (y : Bus) : Out :=
  if y.hs = .done then endWait s t x y .completed else .next (s.putBus x.bus y)

/-- The blocked thread's `Wait` (R217): Interrupted at any time, Woken when `sig > 0`, TimedOut when `sig = 0` and the
deadline has come; otherwise it stays blocked. -/
def answerWait (s : State) (t : Nat) (x : Txn) (y : Bus) (deadline : Nat) : Out :=
  if s.intr then recheck s t x y
  else if 0 < y.sig then recheck s t x { y with sig := y.sig - 1 }
  else if deadline ≤ s.now then endWait s t x y .timedOut
  else .next s

/-- The polled loop's test (R214), once an invocation has returned: Done, else the time-out, else another invocation. -/
def pollAgain (s : State) (t : Nat) (x : Txn) (y : Bus) (t0 : Nat) : Out :=
  if y.hs = .done then endWait s t x y .completed
  else if s.cfg.timeoutTicks ≤ s.now - t0 then endWait s t x y .timedOut
  else .next (s.putBus x.bus (y.enterInvocation s.cfg.traceEn))

/-- Step 9, ORCH.WAIT (R211 to R219). -/
def execOrchWait (s : State) : Out :=
  withTxn s fun t x y =>
    match x.wait with
    | .fresh =>
      if s.interruptMode then
        .next ((s.putBus x.bus y.armAndMark).putTxn t { x with wait := .blocked (s.now + s.cfg.timeoutTicks) })
      else
        .next ((s.putBus x.bus ({ y with hs := .waiting }.enterInvocation s.cfg.traceEn)).putTxn t
          { x with wait := .polling s.now })
    | .blocked deadline => answerWait s t x y deadline
    | .polling t0 => pollAgain s t x y t0

/-- Step 10, ORCH.TIMEOUT (R220): re-read status for the sink, result Timeout, withdraw START. -/
def execOrchTimeout (s : State) : Out :=
  withTxn s fun t x y =>
    let st := y.readStatus
    .next (((s.emit (.timedOut x.bus (y.readReg .cr1) st)).putBus x.bus
      (y.modifyReg .cr1 CR1_START 0x0000#16)).putTxn t { s.past x 10 with st := st, result := .timeout })

/-- Step 11, ORCH.MASK (R221). -/
def execOrchMask (s : State) : Out :=
  withTxn s fun t x y => .next (s.putTxn t { s.past x 11 with st := maskStatus y.status })

/-- Step 12, ORCH.CLASSIFY (R222, R292): the first error flag. -/
def execOrchClassify (s : State) : Out :=
  withTxn s fun t x _ => .next (s.putTxn t { s.past x 12 with result := classifyErrors x.st })

/-- Step 13, ORCH.BUSYCHECK (R222, R294). -/
def execOrchBusyCheck (s : State) : Out :=
  withTxn s fun t x _ => .next (s.putTxn t { s.past x 13 with result := busyCheck x.st x.result })

/-- The dump of the ring (R276); nothing unless tracing is compiled in. -/
def State.dumpTrace (s : State) (b : Nat) (y : Bus) : State :=
  if s.cfg.traceEn then s.emit (.dump b (ring s.cfg.traceCap y.trLog)) else s

/-- Step 14, ORCH.DUMP (R223). -/
def execOrchDump (s : State) : Out :=
  withTxn s fun t x y => .next ((s.dumpTrace x.bus y).putTxn t (s.past x 14))

/-- Step 15, ORCH.WAITSTOP2 (R224). -/
def execOrchWaitStop2 (s : State) : Out :=
  withTxn s fun t x y =>
    if s.cfg.pinConflict x.bus then waitStop s t x y 15 else .next (s.putTxn t (s.past x 15))

/-- Step 16, ORCH.XPERIPH_ON (R225): the saved state is restored. -/
def execOrchXperiphOn (s : State) : Out :=
  withTxn s fun t x _ =>
    if s.cfg.pinConflict x.bus then .next ({ s with xperiphEn := x.savedX }.putTxn t (s.past x 16))
    else .next (s.putTxn t (s.past x 16))

/-- Step 17, ORCH.UNLOCK (R226): release the lock; `Execute` returns the result. -/
def execOrchUnlock (s : State) : Out :=
  withTxn s fun t x y => .next ((s.putBus x.bus (y.release s.pick)).raise t x.result)

end Sys2Proof.Machine
end

