-- ==== Sys2Proof/Machine/Tsm.lean ====
section
/-! DEFINITION. TSM, the transfer state machine: the thirteen actions of an invocation (41_transfer_state_machine.md R160
to R185), each on the invocation in progress and each leaving it at the stage that comes next. -/

namespace Sys2Proof.Machine

/-- EV.START (R161 to R164): trace, then take up the message `msgv` names. -/
def execEvStart (s : State) : Out :=
  withInvocation s fun b x v =>
    match x.msgv with
    | none => .fault .startWithoutMessage
    | some p =>
      if x.msgc < 1 then .fault .startWithoutMessage
      else
        orFault (fetchMessage s.mem p) fun m =>
          .next (s.putBus b (((x.trace s.cfg.traceEn v.snap .start x.msgc).startMessage m).toStage .b))

/-- EV.TX (R165): decrement; if a byte remains, send it. -/
def execEvTx (s : State) : Out :=
  withInvocation s fun b x v =>
    let y := { x with dcnt := x.dcnt - 1 }
    if y.dcnt < 0 then .next (s.putBus b (y.toStage .b))
    else
      match y.ptr with
      | none => .fault .nullBuffer
      | some p =>
        orFault (memRead s.mem p) fun w =>
          let z := (y.trace s.cfg.traceEn v.snap .phase 0).trace s.cfg.traceEn v.snap .send (w.toNat : Int)
          .next (s.putBus b (((z.writeReg .dr (w.zeroExtend 16)).advancePtr).toStage .b))

/-- EV.RXADDR (R166): in `MODE = Interrupt`, enable byte-ready interrupts; in `MODE = Polled`, nothing. -/
def execEvRxAddr (s : State) : Out :=
  withInvocation s fun b x v =>
    if s.interruptMode then
      .next (s.putBus b (((x.trace s.cfg.traceEn v.snap .itbufen 0).setItbufen true true).toStage .b))
    else .next (s.putBus b (x.toStage .b))

/-- The ACK clear before the last byte (R169). -/
def Bus.clearAckBeforeLast (x : Bus) : Bus :=
  { x with cr1 := if x.dcnt = 1 then modifyBits x.cr1 CR1_ACK 0x0000#16 else x.cr1 }

/-- EV.RX (R168, R169): decrement; if a byte remains, store the byte DR holds. -/
def execEvRx (s : State) : Out :=
  withInvocation s fun b x v =>
    let y := { x with dcnt := x.dcnt - 1 }
    if y.dcnt < 0 then .next (s.putBus b (y.toStage .b))
    else
      match y.ptr with
      | none => .fault .nullBuffer
      | some p =>
        let z := y.trace s.cfg.traceEn v.snap .recv y.dcnt
        let w := (z.readReg .dr).setWidth 8
        .next ({ s with mem := memWrite s.mem p w }.putBus b ((z.advancePtr.clearAckBeforeLast).toStage .b))

/-- POST.BUFEN (R171). -/
def execPostBufEn (s : State) : Out :=
  withInvocation s fun b x _ => .next (s.putBus b ((x.setItbufen s.interruptMode true).toStage .c))

/-- POST.BUFDIS (R172). -/
def execPostBufDis (s : State) : Out :=
  withInvocation s fun b x _ => .next (s.putBus b ((x.setItbufen s.interruptMode false).toStage .c))

/-- POST.BTF (R173): the discard read of DR, which changes no state of I2CM (R75c); the branch it leads to comes next. -/
def execPostBtf (s : State) : Out :=
  withInvocation s fun b x _ => .next (s.putBus b (x.toStage .sub))

/-- POST.BTF.SPLICE (R174). -/
def execPostBtfSplice (s : State) : Out :=
  withInvocation s fun b x _ =>
    orFault (fetchCursor (fetchMessage s.mem) x.msgv) fun m =>
      .next (s.putBus b ((x.spliceMessage s.interruptMode m).toStage .d))

/-- POST.BTF.RESTART (R175). -/
def execPostBtfRestart (s : State) : Out :=
  withInvocation s fun b x v =>
    .next (s.putBus b (((x.trace s.cfg.traceEn v.snap .restart x.msgc).modifyReg .cr1 0x0000#16 CR1_START).toStage .d))

/-- POST.BTF.STOP (R176): STOP is requested before the waiter is woken. -/
def execPostBtfStop (s : State) : Out :=
  withInvocation s fun b x v =>
    let y := ((x.trace s.cfg.traceEn v.snap .stop 0).modifyReg .cr1 0x0000#16 CR1_STOP).wake s.interruptMode
    .next (s.putBus b ({ y with msgv := none }.toStage .d))

/-- POST.BTF with nothing to do (R177): the discard read has been made; nothing else happens. -/
def execPostBtfNone (s : State) : Out :=
  withInvocation s fun b x _ => .next (s.putBus b (x.toStage .d))

/-- POST.ERR (R178 to R180): clear the error flags, wake the waiter. -/
def execPostErr (s : State) : Out :=
  withInvocation s fun b x _ =>
    .next (s.putBus b (((x.writeReg .sr1 0x0000#16).wake s.interruptMode).toStage .fin))

/-- POST.LATCH (R181): latch the snapshot; the invocation returns (R306). -/
def execPostLatch (s : State) : Out :=
  withInvocation s fun b x v => .next (s.putBus b (x.leaveInvocation v))

end Sys2Proof.Machine
end

