-- ==== Sys2Proof/Machine/Dispatch.lean ====
section
/-! DEFINITION. The meaning of every operation: one arm per constructor, each one direct call. -/

namespace Sys2Proof.Machine

def exec (i : Instr) (s : State) : Host.Outcome State Fault Refusal :=
  match i with
  -- format H (R106)
  | .openBus bus => Sys2Proof.Machine.execOpenBus bus s
  | .closeHandle h => Sys2Proof.Machine.execCloseHandle h s
  | .setFreq h hz => Sys2Proof.Machine.execSetFreq h hz s
  | .setAddr h address bits => Sys2Proof.Machine.execSetAddr h address bits s
  | .write h buffer length => Sys2Proof.Machine.execWrite h buffer length s
  | .read h buffer length => Sys2Proof.Machine.execRead h buffer length s
  | .writeRead h wbuffer wlen rbuffer rlen => Sys2Proof.Machine.execWriteRead h wbuffer wlen rbuffer rlen s
  | .transfer h messages count => Sys2Proof.Machine.execTransfer h messages count s
  -- format M (R103)
  | .msgW addr rsv buffer length => Sys2Proof.Machine.execMsgW addr rsv buffer length s
  | .msgR addr rsv buffer length => Sys2Proof.Machine.execMsgR addr rsv buffer length s
  | .msgWNr addr rsv buffer length => Sys2Proof.Machine.execMsgWNr addr rsv buffer length s
  | .msgRNr addr rsv buffer length => Sys2Proof.Machine.execMsgRNr addr rsv buffer length s
  | .msgWTen addr rsv buffer length => Sys2Proof.Machine.execMsgWTen addr rsv buffer length s
  | .msgRTen addr rsv buffer length => Sys2Proof.Machine.execMsgRTen addr rsv buffer length s
  | .msgWTenNr addr rsv buffer length => Sys2Proof.Machine.execMsgWTenNr addr rsv buffer length s
  | .msgRTenNr addr rsv buffer length => Sys2Proof.Machine.execMsgRTenNr addr rsv buffer length s
  -- format S (R105)
  | .evStart => Sys2Proof.Machine.execEvStart s
  | .evTx => Sys2Proof.Machine.execEvTx s
  | .evRxAddr => Sys2Proof.Machine.execEvRxAddr s
  | .evRx => Sys2Proof.Machine.execEvRx s
  | .postBufEn => Sys2Proof.Machine.execPostBufEn s
  | .postBufDis => Sys2Proof.Machine.execPostBufDis s
  | .postBtf => Sys2Proof.Machine.execPostBtf s
  | .postBtfSplice => Sys2Proof.Machine.execPostBtfSplice s
  | .postBtfRestart => Sys2Proof.Machine.execPostBtfRestart s
  | .postBtfStop => Sys2Proof.Machine.execPostBtfStop s
  | .postBtfNone => Sys2Proof.Machine.execPostBtfNone s
  | .postErr => Sys2Proof.Machine.execPostErr s
  | .postLatch => Sys2Proof.Machine.execPostLatch s
  -- format O (R200)
  | .orchLock => Sys2Proof.Machine.execOrchLock s
  | .orchXperiphOff => Sys2Proof.Machine.execOrchXperiphOff s
  | .orchWaitStop => Sys2Proof.Machine.execOrchWaitStop s
  | .orchClrErr => Sys2Proof.Machine.execOrchClrErr s
  | .orchClrReq => Sys2Proof.Machine.execOrchClrReq s
  | .orchInstall => Sys2Proof.Machine.execOrchInstall s
  | .orchClk => Sys2Proof.Machine.execOrchClk s
  | .orchStart => Sys2Proof.Machine.execOrchStart s
  | .orchWait => Sys2Proof.Machine.execOrchWait s
  | .orchTimeout => Sys2Proof.Machine.execOrchTimeout s
  | .orchMask => Sys2Proof.Machine.execOrchMask s
  | .orchClassify => Sys2Proof.Machine.execOrchClassify s
  | .orchBusyCheck => Sys2Proof.Machine.execOrchBusyCheck s
  | .orchDump => Sys2Proof.Machine.execOrchDump s
  | .orchWaitStop2 => Sys2Proof.Machine.execOrchWaitStop2 s
  | .orchXperiphOn => Sys2Proof.Machine.execOrchXperiphOn s
  | .orchUnlock => Sys2Proof.Machine.execOrchUnlock s
  -- format K (R110)
  | .clkStd => Sys2Proof.Machine.execClkStd s
  | .clkFast2 => Sys2Proof.Machine.execClkFast2 s
  | .clkFast16_9 => Sys2Proof.Machine.execClkFast16_9 s

end Sys2Proof.Machine
end

