-- ==== Sys2Proof/Machine/Fetch.lean ====
section
/-! DEFINITION. What the next step is: the next input names the agent that moves (20_memory.md R83, R85), and the agent's
own place names its operation: a command's bytes (30_encoding.md R106), the transaction's step number (R200), or the
invocation's stage, snapshot and cursor (R105). An input that is not enabled changes nothing. -/

namespace Sys2Proof.Machine

/-- What an input leads to: a move that is no operation, an operation to execute, or a stop. -/
inductive Plan where
  | done (s : State)
  | run (i : Instr) (s : State)
  | stop (f : Fault)
  | refuse (r : Refusal)

/-- The dispatch value of an invocation (R105): `Msg[msgv].flags` is read only where the branch of POST.BTF needs it. -/
def actionKey (s : State) (x : Bus) (v : Invocation) : Except Fault DispatchKey :=
  let k : DispatchKey :=
    ⟨v.stage, s.interruptMode, v.snap, x.flags, x.dcnt, x.msgc, x.msgv.isNone, false⟩
  if v.stage = .sub ∧ 0 < x.msgc then
    match fetchCursor (fetchFlags s.mem) x.msgv with
    | .ok fl => .ok { k with nextNoRestart := isNoRestart fl }
    | .error f => .error f
  else .ok k

/-- Decode a word and execute it. -/
def runWord (w : OpWord) (s : State) (onReject : Plan) : Plan :=
  match decode w with
  | .ok i => .run i s
  | .error _ => onReject

/-- The next action of the invocation in progress on a bus. -/
def planAction (s : State) (x : Bus) (v : Invocation) : Plan :=
  match actionKey s x v with
  | .error f => .stop f
  | .ok k => runWord (.action k) s (.refuse .noStep)

/-- A thread issues a host command (R240); one that is inside a command issues nothing. A reserved code raises
InvalidArgument with no state change (R112). -/
def planIssue (s : State) (t : Nat) (bs : List Byte) : Plan :=
  match (s.thread t).txn with
  | some _ => .done s
  | none =>
    match decode (.command bs) with
    | .ok i => .run i { s with cur := .thread t }
    | .error .reservedCode => .done (s.raise t .invalidArgument)
    | .error _ => .refuse .malformedCommand

/-- The transaction is inside the polled loop, where the thread itself runs TSM (R214). -/
def Txn.pollsNow (x : Txn) : Bool :=
  match x.wait with
  | .polling _ => decide (x.step = 9)
  | .fresh => false
  | .blocked _ => false

/-- A thread takes its next step: an ORCH step, or, inside the polled loop, an action of the invocation it has called.
While an invocation of its bus is in progress it takes no ORCH step (R85a). -/
def planRun (s : State) (t : Nat) : Plan :=
  match (s.thread t).txn with
  | none => .done s
  | some x =>
    match s.bus? x.bus with
    | none => .refuse .noBus
    | some y =>
      match y.inv with
      | none =>
        if x.step ≤ 17 then runWord (.step (BitVec.ofNat 8 x.step)) s (.refuse .noStep) else .refuse .noStep
      | some v => if !s.interruptMode && x.pollsNow then planAction s y v else .done s

/-- The interrupt context of a bus moves (R303): the next action of its invocation, or the taking of the interrupt when
that is enabled. Only in `MODE = Interrupt`. -/
def planIrq (s : State) (b : Nat) : Plan :=
  if s.interruptMode then
    match s.bus? b with
    | none => .done s
    | some x =>
      match x.inv with
      | some v => planAction s x v
      | none => if x.irqEnabledNow then .done (s.putBus b (x.enterInvocation s.cfg.traceEn)) else .done s
  else .done s

/-- The plan of one input. -/
def plan (e : Event) (s : State) : Plan :=
  match e with
  | .env m => .done (s.applyEnv m)
  | .issue t bs => planIssue s t bs
  | .run t intr pick dropAck => planRun { s with cur := .thread t, intr := intr, pick := pick, dropAck := dropAck } t
  | .irq b => planIrq { s with cur := .isr b } b

/-! ### Placing one operation so that the next step runs it (log entry 13) -/

/-- Put an input first. -/
def State.pushEvent (s : State) (e : Event) : State := { s with sched := e :: s.sched }

/-- Thread 0 is inside no command. -/
def State.freeCaller (s : State) : State := s.putThread 0 { s.thread 0 with txn := none }

/-- Bus 1 is powered and handle 0 is a live handle of it with a frequency. -/
def State.withHandleZero (s : State) (freq : Nat) : State :=
  let s1 := s.modifyBus 1 (fun x =>
    let y := if x.refs = 0 then x.powerUp s.interruptMode else x
    { y with refs := y.refs + 1, inv := none })
  { s1 with handles := kput s1.handles 0 ⟨1, freq, 0x0000#16, 0x0000#16⟩, nextHandle := max 1 s1.nextHandle }

/-- A list of one empty write message, in storage of the call. -/
def oneMessage : MsgPtr := .call [⟨0x0000#16, 0x0000#16, none, 0⟩]

/-- Thread 0 is inside a transaction on bus 1 at a step, and holds the lock unless the step is the first. -/
def State.inTransaction (s : State) (n : Nat) (w : WaitPhase) : State :=
  let s1 := s.modifyBus 1 (fun x => { x with lock := if n = 1 then .free else .held 0, waiters := [] })
  s1.putTxn 0 { Txn.start 0 ⟨1, defaultFreq, 0x0000#16, 0x0000#16⟩ oneMessage 1 with step := n, wait := w }

/-- Bus 1 is in an invocation with a dispatch value, run by its interrupt context or by the polling thread 0. -/
def State.inAction (s : State) (k : DispatchKey) (p : Option MsgPtr) (n : Int) : State :=
  let w : WaitPhase := if s.interruptMode then .blocked s.now else .polling s.now
  let s1 := (s.withHandleZero defaultFreq).inTransaction 9 w
  let s2 := s1.modifyBus 1 (fun x =>
    { x with inv := some ⟨k.snap, k.stage⟩, flags := k.flags, dcnt := k.dcnt, msgv := p, msgc := n, hs := .waiting })
  s2.pushEvent (if s.interruptMode then .irq 1 else .run 0 false 0 false)

/-- The address `placeWord` stores a descriptor at. -/
def descriptorAddress : Nat := 0x1000

/-- Store bytes in caller memory from an address on. -/
def writeBytes (m : List Host.Cell) (a : Nat) : List Byte → List Host.Cell
  | [] => m
  | v :: r => writeBytes (memWrite m a v) (a + 1) r

/-- The frequency that selects a CLK mode, and the fast sub-mode (R110). -/
def modeFreq (v : Half) : Nat := if v &&& CCR_FS = 0#16 then stdMaxHz else fastMaxHz

/-- `FAST_DUTY` for a CLK mode (R110). -/
def modeDuty (v : Half) : FastDuty := if v &&& CCR_DUTY = 0#16 then .duty2 else .duty16_9

/-- Place a word where the next step fetches its operation. A message is fetched by EV.START, a CLK mode by step 7. -/
def placeWord (s : State) : OpWord → State
  | .command bs =>
    let s1 := if bs.head? = some 0x00#8 then s.freeCaller else (s.withHandleZero defaultFreq).freeCaller
    s1.pushEvent (.issue 0 bs)
  | .descriptor bs =>
    { s with mem := writeBytes s.mem descriptorAddress bs }.inAction (idleKey .a S_SB) (some (.mem descriptorAddress)) 1
  | .action k =>
    if anyBit k.snap S_SB && decide (k.stage = .a) then s.inAction k (some oneMessage) 1
    else s.inAction k (if k.msgvNull then none else some oneMessage) k.msgc
  | .step n =>
    ((s.withHandleZero defaultFreq).inTransaction (n &&& 0x1F#8).toNat .fresh).pushEvent (.run 0 false 0 false)
  | .ccr v =>
    let s1 := { s with cfg := { s.cfg with fastDuty := modeDuty v } }
    ((s1.withHandleZero (modeFreq v)).inTransaction 7 .fresh).pushEvent (.run 0 false 0 false)

end Sys2Proof.Machine
end

