-- ==== Sys2Proof/Machine/Step.lean ====
section
/-! DEFINITION. One step of the machine: the next input is taken, and what it leads to is done. With no input left the
machine is passive and nothing changes (70_reset_and_hazards.md R341). -/

namespace Sys2Proof.Machine

/-- Carry out a plan. -/
def carryOut : Plan → Host.Outcome State Fault Refusal
  | .done s => .next s
  | .run i s => exec i s
  | .stop f => .fault f
  | .refuse r => .refused r

/-- One step. -/
def step (s : State) : Host.Outcome State Fault Refusal :=
  match s.sched with
  | [] => .next s
  | e :: r => carryOut (plan e { s with sched := r })

/-- `s` with a word of spec/opcode_table.json placed so that the next step runs it (log entry 13). -/
def State.withFetchWord (s : State) (nbits w : Nat) : State := placeWord s (tableWord nbits w)

end Sys2Proof.Machine
end

