-- ==== Sys2Proof/Machine/LineEngine.lean ====
section
/-! DEFINITION. The line engine as the spec describes it: an environment agent with liberties L1 to L3 (10_state.md R45), and
the optional premises WB1 to WB10 of a well-behaved one (R48). No rule of I2CM, and no definition of the machine's
step, uses the premises: a claim may take them as hypotheses about the inputs. -/

namespace Sys2Proof.Machine

/-- The line engine may turn a bus into another (R45): any SR1 and SR2 (L1); of CR1 only START, STOP, PEC, and ACK while
PE = 0, may be cleared and nothing set (L2); any byte for the next read of DR (L3); nothing else. -/
def LineEngineMay (x y : Bus) : Prop :=
  y = { x with sr1 := y.sr1, sr2 := y.sr2, dr := y.dr, cr1 := y.cr1 }
    ∧ y.cr1 &&& ~~~x.cr1 = 0#16 ∧ x.cr1 &&& ~~~y.cr1 &&& ~~~clearableCr1 x.cr1 = 0#16

/-- A reaction of a well-behaved line engine (R48). -/
inductive Reaction where
  /-- WB1: a requested START is served. -/
  | startServed
  /-- WB2: SB clears, after a read of SR1 and a write of DR. -/
  | sbCleared
  /-- WB3: a target acknowledged the address byte; `read` is bit 0 of that byte. -/
  | addressAcked (read : Bool)
  /-- WB3: no target acknowledged it. -/
  | addressNacked
  /-- WB4: ADDR clears, after a read of SR1 and a read of SR2. -/
  | addrCleared
  /-- WB5: as transmitter, DR is empty. -/
  | drEmptied
  /-- WB5: as transmitter, DR has been written. -/
  | drFilled
  /-- WB5: as transmitter, a byte has been sent and DR is still empty. -/
  | byteSent
  /-- WB5: as receiver, a byte arrives in DR. -/
  | byteArrived (v : Byte)
  /-- WB5: as receiver, a further byte arrives while DR is still full. -/
  | furtherByte
  /-- WB6: RXNE clears, after a read of DR. -/
  | rxneCleared
  /-- WB6: BTF clears, after a read of SR1 and a read or write of DR. -/
  | btfCleared
  /-- WB7: a requested STOP is served. -/
  | stopServed
  /-- WB8: an error flag is raised; error flags stay set until written 0. -/
  | errorRaised (flags : Half)
  /-- WB10: ACK is cleared when PE is written 0. -/
  | ackDropped
  deriving DecidableEq, Repr

/-- What a bus must show for a reaction, as far as its registers tell (R48). WB9 is the absence of a reaction: the
master's own NACK of the last byte raises nothing. -/
def Reaction.enabled (x : Bus) : Reaction → Bool
  | .startServed => anyBit x.cr1 CR1_PE && anyBit x.cr1 CR1_START
  | .sbCleared => anyBit x.sr1 SR1_SB
  | .addressAcked _ => true
  | .addressNacked => true
  | .addrCleared => anyBit x.sr1 SR1_ADDR
  | .drEmptied => anyBit x.sr2 SR2_TRA
  | .drFilled => anyBit x.sr2 SR2_TRA
  | .byteSent => anyBit x.sr2 SR2_TRA && anyBit x.sr1 SR1_TXE
  | .byteArrived _ => !anyBit x.sr2 SR2_TRA
  | .furtherByte => !anyBit x.sr2 SR2_TRA && anyBit x.sr1 SR1_RXNE
  | .rxneCleared => anyBit x.sr1 SR1_RXNE
  | .btfCleared => anyBit x.sr1 SR1_BTF
  | .stopServed => anyBit x.cr1 CR1_STOP
  | .errorRaised fl => fl &&& ~~~SR1_ERRORS == 0#16
  | .ackDropped => !anyBit x.cr1 CR1_PE

/-- The moves of a reaction on bus `b` (R48). -/
def Reaction.moves (b : Nat) (x : Bus) : Reaction → List EnvMove
  | .startServed =>
      [.setSr1 b (x.sr1 ||| SR1_SB), .setSr2 b (x.sr2 ||| SR2_MSL ||| SR2_BUSY), .clearCr1 b CR1_START]
  | .sbCleared => [.setSr1 b (x.sr1 &&& ~~~SR1_SB)]
  | .addressAcked read =>
      if read then [.setSr1 b (x.sr1 ||| SR1_ADDR)]
      else [.setSr1 b (x.sr1 ||| SR1_ADDR ||| SR1_TXE), .setSr2 b (x.sr2 ||| SR2_TRA)]
  | .addressNacked => [.setSr1 b (x.sr1 ||| SR1_AF)]
  | .addrCleared => [.setSr1 b (x.sr1 &&& ~~~SR1_ADDR)]
  | .drEmptied => [.setSr1 b (x.sr1 ||| SR1_TXE)]
  | .drFilled => [.setSr1 b (x.sr1 &&& ~~~SR1_TXE)]
  | .byteSent => [.setSr1 b (x.sr1 ||| SR1_BTF)]
  | .byteArrived v => [.receive b v, .setSr1 b (x.sr1 ||| SR1_RXNE)]
  | .furtherByte => [.setSr1 b (x.sr1 ||| SR1_BTF)]
  | .rxneCleared => [.setSr1 b (x.sr1 &&& ~~~SR1_RXNE)]
  | .btfCleared => [.setSr1 b (x.sr1 &&& ~~~SR1_BTF)]
  | .stopServed =>
      [.clearCr1 b CR1_STOP, .setSr2 b (x.sr2 &&& ~~~(SR2_MSL ||| SR2_BUSY ||| SR2_TRA))]
  | .errorRaised fl => [.setSr1 b (x.sr1 ||| fl)]
  | .ackDropped => [.clearCr1 b CR1_ACK]

/-- The moves of the environment one after the other. -/
def State.applyMoves (s : State) : List EnvMove → State
  | [] => s
  | m :: r => (s.applyEnv m).applyMoves r

/-- One reaction of a well-behaved line engine on a bus. -/
def State.react (s : State) (b : Nat) (r : Reaction) : State :=
  match s.bus? b with
  | some x => if r.enabled x then s.applyMoves (r.moves b x) else s
  | none => s

end Sys2Proof.Machine
end

