-- ==== Sys2Proof/Safety.lean ====
section
/-! DEFINITION. What counts as a sound state, in the terms the claims use: the contexts an operation runs in, and the
invariants of the machine, each from a rule of the spec about the whole machine. -/

namespace Sys2Proof.Machine

/-! ### Formats -/

/-- The five operation formats (30_encoding.md R100). -/
inductive Format where
  | h
  | m
  | s
  | o
  | k
  deriving DecidableEq, Repr

/-- The format of an operation. -/
def formatOf : Instr → Format
  | .openBus _ | .closeHandle _ | .setFreq _ _ | .setAddr _ _ _ | .write _ _ _ | .read _ _ _
  | .writeRead _ _ _ _ _ | .transfer _ _ _ => .h
  | .msgW _ _ _ _ | .msgR _ _ _ _ | .msgWNr _ _ _ _ | .msgRNr _ _ _ _ | .msgWTen _ _ _ _
  | .msgRTen _ _ _ _ | .msgWTenNr _ _ _ _ | .msgRTenNr _ _ _ _ => .m
  | .evStart | .evTx | .evRxAddr | .evRx | .postBufEn | .postBufDis | .postBtf | .postBtfSplice
  | .postBtfRestart | .postBtfStop | .postBtfNone | .postErr | .postLatch => .s
  | .orchLock | .orchXperiphOff | .orchWaitStop | .orchClrErr | .orchClrReq | .orchInstall | .orchClk
  | .orchStart | .orchWait | .orchTimeout | .orchMask | .orchClassify | .orchBusyCheck | .orchDump
  | .orchWaitStop2 | .orchXperiphOn | .orchUnlock => .o
  | .clkStd | .clkFast2 | .clkFast16_9 => .k

/-- An operation of the sequencer: a TSM action or a message. -/
def isSequencer (i : Instr) : Bool := formatOf i = .s || formatOf i = .m

/-- An operation of the orchestrator: an ORCH step or a CLK mode. -/
def isOrchestrator (i : Instr) : Bool := formatOf i = .o || formatOf i = .k

/-- CLK: step 7 or one of its modes. -/
def isClk (i : Instr) : Bool := i = .orchClk || formatOf i = .k

/-! ### Contexts -/

/-- Thread `t` is running and inside no command. -/
def CallerReady (s : State) (t : Nat) : Prop := s.cur = .thread t ∧ (s.thread t).txn = none

/-- Thread `t` is running inside the transaction `x`, whose bus is `y`. -/
def InTxn (s : State) (t : Nat) (x : Txn) (y : Bus) : Prop :=
  s.cur = .thread t ∧ (s.thread t).txn = some x ∧ s.bus? x.bus = some y

/-- The running agent works on bus `b`, whose state is `x`, and the invocation `v` is in progress there. -/
def InInvocation (s : State) (b : Nat) (x : Bus) (v : Invocation) : Prop :=
  s.curBus = some b ∧ s.bus? b = some x ∧ x.inv = some v

/-- The invocation `v` on a bus in state `x` selects the action `i` next (30_encoding.md R105). -/
def Selects (s : State) (x : Bus) (v : Invocation) (i : Instr) : Prop :=
  ∃ k, actionKey s x v = .ok k ∧ decode (.action k) = .ok i

/-! ### Invariants -/

/-- No register holds a bit no rule sets (R37 to R39, R43, R44): CR1 only PE, START, STOP and ACK; CR2 only the three
enables; OAR1 only bit 14; OAR2 nothing; CCR bits 13:12 and TRISE bits 15:6 zero. -/
def Bus.regsLegal (x : Bus) : Bool :=
  x.cr1 &&& 0xF8FE#16 == 0#16 && x.cr2 &&& 0xF8FF#16 == 0#16 && x.oar1 &&& 0xBFFF#16 == 0#16
    && x.oar2 == 0#16 && x.ccr &&& 0x3000#16 == 0#16 && x.trise &&& 0xFFC0#16 == 0#16

/-- Every bus's registers are legal. -/
def RegistersLegal (s : State) : Prop := ∀ b x, s.bus? b = some x → x.regsLegal = true

/-- Caller memory is in its canonical form. -/
def MemoryCanonical (s : State) : Prop := Memory.wf s.mem = true

/-- A thread past step 1 of a transaction holds the lock of its bus (R23, R88). -/
def LockDiscipline (s : State) : Prop :=
  ∀ t x y, (s.thread t).txn = some x → s.bus? x.bus = some y → 2 ≤ x.step → y.lock = .held t

/-- Some thread is inside the wait of step 9 on bus `b` (R211 to R219). -/
def WaiterOn (s : State) (b : Nat) : Prop :=
  ∃ t x, (s.thread t).txn = some x ∧ x.bus = b ∧ x.step = 9 ∧ x.wait ≠ .fresh

/-- Outside the wait of step 9 a bus is quiet (R24, R86, R301): `hs` is Idle, no enable is set and no invocation is in
progress; and in `MODE = Polled` no enable is ever set (R182). -/
def WaitDiscipline (s : State) : Prop :=
  ∀ b y, s.bus? b = some y →
    (y.hs ≠ .idle → WaiterOn s b) ∧ (y.inv ≠ none → WaiterOn s b)
      ∧ (y.cr2 &&& 0x0700#16 ≠ 0#16 → s.cfg.mode = .interrupt ∧ WaiterOn s b)

/-- The lock and the wait of step 9 are kept as the spec says. -/
def Coherent (s : State) : Prop := LockDiscipline s ∧ WaitDiscipline s

/-- In `MODE = Interrupt`, Done comes with a post not yet taken (R215). -/
def DoneIsPosted (s : State) : Prop :=
  s.cfg.mode = .interrupt → ∀ b y, s.bus? b = some y → y.hs = .done → 0 < y.sig

/-- A bus is enabled exactly while it is powered (R22, R255, R317). -/
def PoweredIsEnabled (s : State) : Prop :=
  ∀ b y, s.bus? b = some y → (0 < y.refs ↔ y.cr1 &&& CR1_PE ≠ 0#16)

/-- How many live handles refer to bus `b`. -/
def handlesOf (m : KMap Handle) (b : Nat) : Nat := (m.filter (fun p => p.2.bus = b)).length

/-- `refs` counts the live handles of a bus (R22, R31), and a new handle's identity is fresh. -/
def RefsCountHandles (s : State) : Prop :=
  ksorted s.handles = true ∧ (∀ p ∈ s.handles, p.1 < s.nextHandle)
    ∧ ∀ b y, s.bus? b = some y → y.refs = handlesOf s.handles b

end Sys2Proof.Machine
end

