-- ==== Sys2Proof/Certificates/Slice0/Obligations.lean ====
section
/-! DEFINITION. The statements about the model for the provers, from the numbered rules of the spec. A result statement
gives the whole next state, so what it does not name is unchanged. What a result or frame statement says of an action, a
message or an ORCH step in a place that does not select it (another stage, another step number) is the model's choice (log
entry 32); StepRunsDecoded and DispatchOrder say which operation a step runs. -/

open Sys2Proof Sys2Proof.Machine

/-! ### Encoding -/

/-- Decoding the words of a well-formed operation gives the operation back, with every operand (30_encoding.md R100 to R106,
R110; operand fields of format H: log entry 6). -/
def Obligations.EncodeDecodeAgree : Prop :=
  ∀ i : Instr, i.wf = true → decode (encode i) = .ok i

/-- Words written out from the tables of 30_encoding.md and 95_test_vectors.md L2.6 and L3. -/
def Obligations.SpecWordsDecode : Prop :=
  decode (.command [0x00#8, 0x01#8, 0x00#8, 0x00#8, 0x00#8]) = .ok (.openBus 1)
  ∧ decode (.descriptor [0x50#8, 0x00#8, 0x00#8, 0x00#8, 0x00#8, 0x20#8, 0x00#8, 0x00#8, 0x02#8, 0x00#8, 0x00#8, 0x00#8])
      = .ok (.msgW 0x0050#16 0x0000#16 (some 0x2000) 2)
  ∧ decode (.descriptor [0x50#8, 0x00#8, 0x81#8, 0x00#8, 0x00#8, 0x30#8, 0x00#8, 0x00#8, 0x05#8, 0x00#8, 0x00#8, 0x00#8])
      = .ok (.msgRNr 0x0050#16 0x0000#16 (some 0x3000) 5)
  ∧ decode (.step 0x09#8) = .ok .orchWait
  ∧ decode (.ccr 0xC003#16) = .ok .clkFast16_9
  ∧ decode (.command [0x09#8]) = .error .reservedCode

/-- R103: `flags & 0x0083` chooses the kind, and the operation holds the message whole: address, every flag bit, buffer and
length. -/
def Obligations.FlagsChooseTheKind : Prop :=
  ∀ m : Message, m.instr.message? = some m ∧
    (m.flags &&& 0x0083#16 = 0x0000#16 ↔ ∃ a r b n, m.instr = .msgW a r b n) ∧
    (m.flags &&& 0x0083#16 = 0x0001#16 ↔ ∃ a r b n, m.instr = .msgR a r b n) ∧
    (m.flags &&& 0x0083#16 = 0x0080#16 ↔ ∃ a r b n, m.instr = .msgWNr a r b n) ∧
    (m.flags &&& 0x0083#16 = 0x0081#16 ↔ ∃ a r b n, m.instr = .msgRNr a r b n) ∧
    (m.flags &&& 0x0083#16 = 0x0002#16 ↔ ∃ a r b n, m.instr = .msgWTen a r b n) ∧
    (m.flags &&& 0x0083#16 = 0x0003#16 ↔ ∃ a r b n, m.instr = .msgRTen a r b n) ∧
    (m.flags &&& 0x0083#16 = 0x0082#16 ↔ ∃ a r b n, m.instr = .msgWTenNr a r b n) ∧
    (m.flags &&& 0x0083#16 = 0x0083#16 ↔ ∃ a r b n, m.instr = .msgRTenNr a r b n)

/-- R105: which action an invocation selects, on the bits of its one snapshot `w` and on the cursor as the earlier stages left
it. Stage A is a first-match chain of four; a stage that selects nothing gives way to the next, B to C to D to the latch. -/
def Obligations.DispatchOrder : Prop :=
  ∀ (s : State) (x : Bus) (w : Word32),
    (Selects s x ⟨w, .a⟩ .evStart ↔ w.getLsbD 0 = true) ∧
    (Selects s x ⟨w, .a⟩ .evTx ↔ w.getLsbD 0 = false ∧ x.flags.getLsbD 0 = false ∧
      (w.getLsbD 1 = true ∨ w.getLsbD 7 = true)) ∧
    (Selects s x ⟨w, .a⟩ .evRxAddr ↔ w.getLsbD 0 = false ∧ x.flags.getLsbD 0 = true ∧ w.getLsbD 1 = true) ∧
    (Selects s x ⟨w, .a⟩ .evRx ↔ w.getLsbD 0 = false ∧ w.getLsbD 6 = true ∧ w.getLsbD 1 = false ∧
      (x.flags.getLsbD 0 = false → w.getLsbD 7 = false)) ∧
    (w.getLsbD 0 = false → w.getLsbD 6 = false → w.getLsbD 1 = false →
      (x.flags.getLsbD 0 = false → w.getLsbD 7 = false) →
      ∀ i, Selects s x ⟨w, .a⟩ i ↔ Selects s x ⟨w, .b⟩ i) ∧
    (Selects s x ⟨w, .b⟩ .postBufEn ↔ s.cfg.mode = .interrupt ∧ 0 < x.dcnt) ∧
    (Selects s x ⟨w, .b⟩ .postBufDis ↔ s.cfg.mode = .interrupt ∧ x.dcnt = 0) ∧
    (s.cfg.mode = .polled ∨ x.dcnt < 0 → ∀ i, Selects s x ⟨w, .b⟩ i ↔ Selects s x ⟨w, .c⟩ i) ∧
    (Selects s x ⟨w, .c⟩ .postBtf ↔ x.dcnt ≤ 0 ∧ w.getLsbD 2 = true) ∧
    (0 < x.dcnt ∨ w.getLsbD 2 = false → ∀ i, Selects s x ⟨w, .c⟩ i ↔ Selects s x ⟨w, .d⟩ i) ∧
    (∀ p fl, 0 < x.msgc → x.msgv = some p → fetchFlags s.mem p = .ok fl →
      (Selects s x ⟨w, .sub⟩ .postBtfSplice ↔ fl &&& 0x0080#16 ≠ 0#16) ∧
      (Selects s x ⟨w, .sub⟩ .postBtfRestart ↔ fl &&& 0x0080#16 = 0#16)) ∧
    (x.msgc ≤ 0 → (Selects s x ⟨w, .sub⟩ .postBtfStop ↔ x.msgv ≠ none) ∧
      (Selects s x ⟨w, .sub⟩ .postBtfNone ↔ x.msgv = none)) ∧
    (Selects s x ⟨w, .d⟩ .postErr ↔ w &&& 0x0000DF00#32 ≠ 0#32) ∧
    (Selects s x ⟨w, .d⟩ .postLatch ↔ w &&& 0x0000DF00#32 = 0#32) ∧
    Selects s x ⟨w, .fin⟩ .postLatch

/-! ### The step -/

/-- A step runs the decoded operation: a command's bytes, an ORCH step's number, an action's dispatch value, each at the
state with the input taken and the running agent named. -/
def Obligations.StepRunsDecoded : Prop :=
  (∀ (s : State) t bs r i, s.sched = .issue t bs :: r → (s.thread t).txn = none → decode (.command bs) = .ok i →
    step s = exec i { s with sched := r, cur := .thread t }) ∧
  (∀ (s : State) t a p d r x y i, s.sched = .run t a p d :: r → (s.thread t).txn = some x →
    s.bus? x.bus = some y → y.inv = none → x.step ≤ 17 →
    decode (.step (BitVec.ofNat 8 x.step)) = .ok i →
    step s = exec i { s with sched := r, cur := .thread t, intr := a, pick := p, dropAck := d }) ∧
  (∀ (s : State) b r x v k i, s.sched = .irq b :: r → s.cfg.mode = .interrupt → s.bus? b = some x → x.inv = some v →
    actionKey s x v = .ok k → decode (.action k) = .ok i →
    step s = exec i { s with sched := r, cur := .isr b }) ∧
  (∀ (s : State) t a p d r x y v k i t0, s.sched = .run t a p d :: r → s.cfg.mode = .polled →
    (s.thread t).txn = some x → s.bus? x.bus = some y → y.inv = some v → x.step = 9 → x.wait = .polling t0 →
    actionKey s y v = .ok k → decode (.action k) = .ok i →
    step s = exec i { s with sched := r, cur := .thread t, intr := a, pick := p, dropAck := d })

/-- With no input left a step answers the same state, in every state. The model's choice (log entry 2), which extends to
every state what R341 says of the machine after reset: that it executes nothing by itself. -/
def Obligations.PassiveWithoutInput : Prop :=
  ∀ s : State, s.sched = [] → step s = .next s

/-- R303 and R305: the interrupt of a bus is taken exactly when its request is asserted, the bus is powered with its line
attached and enabled, and no invocation of it is in progress; entry reads the status once, counts the invocation (44_trace.md
R273, when tracing is compiled in), and saves and switches nothing else. -/
def Obligations.InterruptTaken : Prop :=
  ∀ (s : State) b r x, s.sched = .irq b :: r → s.cfg.mode = .interrupt → s.bus? b = some x → x.inv = none →
    (irqRequest x.cr2 x.sr1 = true ∧ 0 < x.refs ∧ x.irqAttached = true ∧ x.irqEnabled = true →
      step s = .next { s with
        sched := r, cur := .isr b
        buses := kput s.buses b { x with
          trIsr := if s.cfg.traceEn = true then x.trIsr + 1 else x.trIsr
          inv := some ⟨combine x.sr1 x.sr2, .a⟩ } }) ∧
    (¬(irqRequest x.cr2 x.sr1 = true ∧ 0 < x.refs ∧ x.irqAttached = true ∧ x.irqEnabled = true) →
      step s = .next { s with sched := r, cur := .isr b })

/-- R300: the interrupt request, on the bits of CR2 (ITERREN 8, ITEVTEN 9, ITBUFEN 10) and SR1. -/
def Obligations.InterruptRequest : Prop :=
  ∀ cr2 sr1 : Half, irqRequest cr2 sr1 = true ↔
    (cr2.getLsbD 9 = true ∧ sr1 &&& 0x001F#16 ≠ 0#16)
    ∨ (cr2.getLsbD 9 = true ∧ cr2.getLsbD 10 = true ∧ sr1 &&& 0x00C0#16 ≠ 0#16)
    ∨ (cr2.getLsbD 8 = true ∧ sr1 &&& 0xDF00#16 ≠ 0#16)

/-- R91, R161 and R174: the fetched message is the operation that runs. EV.START records the START and then does what the
message in memory at the moment of the fetch does as an operation; the invocation goes on with stage B. POST.BTF.SPLICE does
what the next message, which carries the no-restart flag, does as an operation; the invocation goes on with stage D. -/
def Obligations.FetchedMessageRuns : Prop :=
  (∀ (s : State) b x v p m, InInvocation s b x v → v.stage = .a → x.msgv = some p → 1 ≤ x.msgc →
    fetchMessage s.mem p = .ok m →
    ∃ u y, exec m.instr (s.putBus b (x.trace s.cfg.traceEn v.snap .start x.msgc)) = .next u ∧
      u.bus? b = some y ∧ exec .evStart s = .next (u.putBus b { y with inv := some ⟨v.snap, .b⟩ })) ∧
  (∀ (s : State) b x v p m, InInvocation s b x v → v.stage = .sub → x.msgv = some p →
    fetchMessage s.mem p = .ok m → isNoRestart m.flags = true →
    ∃ u y, exec m.instr s = .next u ∧ u.bus? b = some y ∧
      exec .postBtfSplice s = .next (u.putBus b { y with inv := some ⟨v.snap, .d⟩ }))

/-- R208 with R110: step 7 runs the CLK mode that the handle's frequency and `FAST_DUTY` select, then comes step 8. -/
def Obligations.ClkStepRunsTheMode : Prop :=
  ∀ (s : State) t x y d i u, InTxn s t x y → s.handle? x.handle = some d →
    (i = .clkStd ∧ 0 < d.frequency ∧ d.frequency ≤ 100000
      ∨ i = .clkFast2 ∧ 100000 < d.frequency ∧ d.frequency ≤ 400000 ∧ s.cfg.fastDuty = .duty2
      ∨ i = .clkFast16_9 ∧ 100000 < d.frequency ∧ d.frequency ≤ 400000 ∧ s.cfg.fastDuty = .duty16_9) →
    exec i s = .next u → exec .orchClk s = .next (u.putTxn t { x with step := 8 })

/-! ### Host commands -/

/-- R241: OPEN on a valid bus counts the opening, powers the bus up when it is the first (every register at its reset value,
then PE set, and in `MODE = Interrupt` the line attached and enabled), and returns a new handle with the default contents. -/
def Obligations.OpenResult : Prop :=
  ∀ (s : State) t (b : Nat) x, CallerReady s t → 1 ≤ b → b ≤ s.cfg.nbus →
    s.cfg.pclkMinOpen ≤ s.cfg.pclk → s.bus? b = some x →
    exec (.openBus (b : Int)) s = .next { s with
      buses := kput s.buses b
        (if x.refs = 0 then
          { x with
            refs := 1, cr1 := 0x0001#16, cr2 := 0x0000#16, oar1 := 0x0000#16, oar2 := 0x0000#16, dr := 0x00#8
            sr1 := 0x0000#16, sr2 := 0x0000#16, ccr := 0x0000#16, trise := 0x0002#16
            irqAttached := decide (s.cfg.mode = .interrupt) || x.irqAttached
            irqEnabled := decide (s.cfg.mode = .interrupt) || x.irqEnabled }
        else { x with refs := x.refs + 1 })
      handles := kput s.handles s.nextHandle ⟨b, 100000, 0x0000#16, 0x0000#16⟩
      nextHandle := s.nextHandle + 1
      threads := kput s.threads t ⟨none, some (.handle s.nextHandle)⟩ }

/-- R243: CLOSE drops the count, powers the bus down when it was the last (in `MODE = Interrupt` the line disabled and
detached, then every register at its reset value), destroys the handle and returns Ok. It does so also while another thread
is inside a transaction of the handle (the model's choice, log entry 30). -/
def Obligations.CloseResult : Prop :=
  ∀ (s : State) t h d x, CallerReady s t → s.handle? h = some d → s.bus? d.bus = some x → 1 ≤ x.refs →
    exec (.closeHandle (some h)) s = .next { s with
      buses := kput s.buses d.bus
        (if x.refs = 1 then
          { x with
            refs := 0, cr1 := 0x0000#16, cr2 := 0x0000#16, oar1 := 0x0000#16, oar2 := 0x0000#16, dr := 0x00#8
            sr1 := 0x0000#16, sr2 := 0x0000#16, ccr := 0x0000#16, trise := 0x0002#16
            irqAttached := if s.cfg.mode = .interrupt then false else x.irqAttached
            irqEnabled := if s.cfg.mode = .interrupt then false else x.irqEnabled }
        else { x with refs := x.refs - 1 })
      handles := kdel s.handles h
      threads := kput s.threads t ⟨none, some (.kind .ok)⟩ }

/-- R244 and R246: SETFREQ stores the frequency, clamped to 100 000 Hz from above when the peripheral clock is too slow; SETADDR
stores the low 16 bits of the address and the ten-bit mode, without a range check. -/
def Obligations.ConfigureResult : Prop :=
  ∀ (s : State) t h d, CallerReady s t → s.handle? h = some d →
    (∀ hz, 0 < hz → exec (.setFreq (some h) hz) s = .next { s with
      handles := kput s.handles h
        { d with frequency := if s.cfg.pclk < s.cfg.pclkMinFast then min hz 100000 else hz }
      threads := kput s.threads t ⟨none, some (.kind .ok)⟩ }) ∧
    (∀ a bits, bits = 7 ∨ bits = 10 → exec (.setAddr (some h) a bits) s = .next { s with
      handles := kput s.handles h
        { d with
          address := BitVec.ofNat 16 a
          iflags := if bits = 10 then 0x0002#16 else 0x0000#16 }
      threads := kput s.threads t ⟨none, some (.kind .ok)⟩ })

/-- R297: every InvalidArgument is returned with no state changed but the result the caller gets: a bus number outside
1..NBUS, a peripheral clock below the minimum at OPEN, a zero frequency, an address width other than 7 and 10, and a reserved
command code. -/
def Obligations.InvalidArgumentChangesNothing : Prop :=
  (∀ (s : State) t bus, CallerReady s t → bus < 1 ∨ (s.cfg.nbus : Int) < bus ∨ s.cfg.pclk < s.cfg.pclkMinOpen →
    exec (.openBus bus) s
      = .next { s with threads := kput s.threads t ⟨none, some (.kind .invalidArgument)⟩ }) ∧
  (∀ (s : State) t h d, CallerReady s t → s.handle? h = some d →
    exec (.setFreq (some h) 0) s
      = .next { s with threads := kput s.threads t ⟨none, some (.kind .invalidArgument)⟩ }) ∧
  (∀ (s : State) t h d a bits, CallerReady s t → s.handle? h = some d → bits ≠ 7 → bits ≠ 10 →
    exec (.setAddr (some h) a bits) s
      = .next { s with threads := kput s.threads t ⟨none, some (.kind .invalidArgument)⟩ }) ∧
  (∀ (s : State) t (c : Byte) bs r, s.sched = .issue t (c :: bs) :: r → (s.thread t).txn = none → 8 ≤ c.toNat →
    step s = .next { s with
      sched := r
      threads := kput s.threads t ⟨none, some (.kind .invalidArgument)⟩ })

/-- R247, R248 and R252: WRITE and READ run TRANSFER's expansion on one message with the handle's address and flags, TRANSFER
on the caller's list; each puts the calling thread at step 1 of ORCH and changes nothing else. -/
def Obligations.SingleTransactionResult : Prop :=
  ∀ (s : State) t h d, CallerReady s t → s.handle? h = some d →
    (∀ buf (n : Nat), n = 0 ∨ buf ≠ none →
      exec (.write (some h) buf n) s
        = .next (s.putTxn t (Txn.start h d (.call [⟨d.address, d.iflags, buf, n⟩]) 1)) ∧
      exec (.read (some h) buf n) s
        = .next (s.putTxn t (Txn.start h d (.call [⟨d.address, d.iflags ||| 0x0001#16, buf, n⟩]) 1))) ∧
    (∀ p (n : Int), 1 ≤ n →
      exec (.transfer (some h) (some p) n) s = .next (s.putTxn t (Txn.start h d (.mem p) n)))

/-- R249, R250 and R251: WRITEREAD runs a write message and, unless `rlen` is 0, a read message whose no-restart flag is the
sign of `rlen` and whose length is its magnitude. -/
def Obligations.WriteReadResult : Prop :=
  ∀ (s : State) t h d wb (wn : Nat) rb (rn : Int), CallerReady s t → s.handle? h = some d →
    wn = 0 ∨ wb ≠ none → rn = 0 ∨ rb ≠ none →
    (0 < rn → exec (.writeRead (some h) wb wn rb rn) s
      = .next (s.putTxn t (Txn.start h d
          (.call [⟨d.address, d.iflags, wb, wn⟩, ⟨d.address, d.iflags ||| 0x0001#16, rb, rn.toNat⟩]) 2))) ∧
    (rn < 0 → exec (.writeRead (some h) wb wn rb rn) s
      = .next (s.putTxn t (Txn.start h d
          (.call [⟨d.address, d.iflags, wb, wn⟩,
            ⟨d.address, d.iflags ||| 0x0001#16 ||| 0x0080#16, rb, (-rn).toNat⟩]) 2))) ∧
    (rn = 0 → exec (.writeRead (some h) wb wn rb rn) s
      = .next (s.putTxn t (Txn.start h d (.call [⟨d.address, d.iflags, wb, wn⟩]) 1)))

/-- R253 and R254: a Null handle, a count below 1, a Null list and a Null buffer where a length says it is used are
`fault(assertion)`; a negative length is `fault(bad_descriptor)`, an assertion before it (log entry 10); a handle that is not
live is refused. A Null or dead handle stops the command whatever its other operands are (log entry 31). -/
def Obligations.MisuseStops : Prop :=
  ∀ (s : State) t, CallerReady s t →
    (∀ buf (n : Int) p wb wn rb rn hz a bits,
      exec (.closeHandle none) s = .fault .assertion ∧ exec (.setFreq none hz) s = .fault .assertion ∧
      exec (.setAddr none a bits) s = .fault .assertion ∧ exec (.write none buf n) s = .fault .assertion ∧
      exec (.read none buf n) s = .fault .assertion ∧ exec (.writeRead none wb wn rb rn) s = .fault .assertion ∧
      exec (.transfer none p n) s = .fault .assertion) ∧
    (∀ h buf (n : Int) p wb wn rb rn hz a bits, s.handle? h = none →
      exec (.closeHandle (some h)) s = .refused .deadHandle ∧ exec (.setFreq (some h) hz) s = .refused .deadHandle ∧
      exec (.setAddr (some h) a bits) s = .refused .deadHandle ∧
      exec (.write (some h) buf n) s = .refused .deadHandle ∧ exec (.read (some h) buf n) s = .refused .deadHandle ∧
      exec (.writeRead (some h) wb wn rb rn) s = .refused .deadHandle ∧
      exec (.transfer (some h) p n) s = .refused .deadHandle) ∧
    (∀ h d, s.handle? h = some d →
      (∀ p n, p = none ∨ n < 1 → exec (.transfer (some h) p n) s = .fault .assertion) ∧
      (∀ n : Int, 0 < n → exec (.write (some h) none n) s = .fault .assertion ∧
        exec (.read (some h) none n) s = .fault .assertion) ∧
      (∀ buf (n : Int), n < 0 → exec (.write (some h) buf n) s = .fault .badDescriptor ∧
        exec (.read (some h) buf n) s = .fault .badDescriptor) ∧
      (∀ wb wn rb rn, (0 < wn ∧ wb = none) ∨ (rn ≠ 0 ∧ rb = none) →
        exec (.writeRead (some h) wb wn rb rn) s = .fault .assertion) ∧
      (∀ wb wn rb rn, wn < 0 → rn = 0 ∨ rb ≠ none →
        exec (.writeRead (some h) wb wn rb rn) s = .fault .badDescriptor))

/-- What OPEN and CLOSE keep of the bus and every command of the rest (R240, R241, R243): the frame of format H. -/
def Obligations.CommandFrame : Prop :=
  ∀ i (s s' : State) t, formatOf i = .h → CallerReady s t → exec i s = .next s' →
    s'.cfg = s.cfg ∧ s'.mem = s.mem ∧ s'.now = s.now ∧ s'.xperiphEn = s.xperiphEn ∧ s'.sink = s.sink ∧
    s'.cur = s.cur ∧ s'.intr = s.intr ∧ s'.pick = s.pick ∧ s'.dropAck = s.dropAck ∧ s'.sched = s.sched ∧
    (∀ u, u ≠ t → s'.thread u = s.thread u) ∧
    (∀ h, i = .closeHandle (some h) ∨ h = s.nextHandle ∨ (∃ hz, i = .setFreq (some h) hz)
        ∨ (∃ a n, i = .setAddr (some h) a n) ∨ s'.handle? h = s.handle? h) ∧
    (∀ a, memRead s'.mem a = memRead s.mem a) ∧
    (∀ b x, s.bus? b = some x → ∃ x', s'.bus? b = some x' ∧
      x'.base = x.base ∧ x'.lock = x.lock ∧ x'.waiters = x.waiters ∧ x'.hs = x.hs ∧ x'.msgv = x.msgv ∧
      x'.msgc = x.msgc ∧ x'.dcnt = x.dcnt ∧ x'.ptr = x.ptr ∧ x'.flags = x.flags ∧ x'.status = x.status ∧
      x'.sig = x.sig ∧ x'.trLog = x.trLog ∧ x'.trIsr = x.trIsr ∧ x'.txLog = x.txLog ∧ x'.inv = x.inv ∧
      (x' ≠ x → i = .openBus (b : Int) ∨ ∃ h d, i = .closeHandle (some h) ∧ s.handle? h = some d ∧ d.bus = b))

/-! ### Messages and TSM -/

/-- R162, R163, R164 and R174: taking up a message at START-sent loads the cursor, sends the address byte (R104), sets ACK for a
read of more than one byte, and advances by one descriptor. A no-restart message spliced onto the one before it reloads the
cursor, advances, and in `MODE = Interrupt` sets ITBUFEN: no address byte, no START, no ACK. A ten-bit message sends the
placeholder 0x00 and the same rules apply to it (the choice R163 leaves a model; log entry 9). -/
def Obligations.MessageResult : Prop :=
  (∀ (s : State) b x v a r buf n (m : Instr), InInvocation s b x v → v.stage ≠ .sub →
    m ∈ [Instr.msgW a r buf n, .msgR a r buf n, .msgWNr a r buf n, .msgRNr a r buf n,
      .msgWTen a r buf n, .msgRTen a r buf n, .msgWTenNr a r buf n, .msgRTenNr a r buf n] →
    ∃ fl : Half, m.message? = some ⟨a, fl, buf, n⟩ ∧
      exec m s = .next (s.putBus b { x with
        ptr := buf, dcnt := (n : Int), flags := fl
        txLog := x.txLog ++ [if fl &&& 0x0002#16 = 0#16 then ((a <<< 1) ||| (fl &&& 0x0001#16)).setWidth 8 else 0x00#8]
        cr1 := if 1 < n ∧ fl &&& 0x0001#16 ≠ 0#16 then x.cr1 ||| 0x0400#16 else x.cr1
        msgv := x.msgv.map MsgPtr.next, msgc := x.msgc - 1 })) ∧
  (∀ (s : State) b x v a r buf n (m : Instr), InInvocation s b x v → v.stage = .sub →
    m ∈ [Instr.msgWNr a r buf n, .msgRNr a r buf n, .msgWTenNr a r buf n, .msgRTenNr a r buf n] →
    ∃ fl : Half, m.message? = some ⟨a, fl, buf, n⟩ ∧
      exec m s = .next (s.putBus b { x with
        ptr := buf, dcnt := (n : Int), flags := fl, msgv := x.msgv.map MsgPtr.next, msgc := x.msgc - 1
        cr2 := if s.cfg.mode = .interrupt then x.cr2 ||| 0x0400#16 else x.cr2 }))

/-- R161, R162 and R164: EV.START is selected by SB; it records the start with the remaining count before the decrement, loads
the cursor from the message, sends the address byte (a ten-bit message's placeholder and what follows it: log entry 9),
sets ACK for a read of more than one byte, and advances; with no message to start it is `fault(start_without_message)`. -/
def Obligations.EvStartResult : Prop :=
  ∀ (s : State) b x v, InInvocation s b x v →
    (v.stage = .a → (Selects s x v .evStart ↔ v.snap.getLsbD 0 = true)) ∧
    (∀ p m, x.msgv = some p → 1 ≤ x.msgc → fetchMessage s.mem p = .ok m →
      exec .evStart s = .next (s.putBus b { x with
        trLog := if s.cfg.traceEn = true then x.trLog ++ [⟨v.snap, x.trIsr, .start, x.msgc⟩] else x.trLog
        ptr := m.buffer, dcnt := (m.length : Int), flags := m.flags
        txLog := x.txLog ++ [if m.flags &&& 0x0002#16 = 0#16
          then ((m.addr <<< 1) ||| (m.flags &&& 0x0001#16)).setWidth 8 else 0x00#8]
        cr1 := if 1 < m.length ∧ m.flags &&& 0x0001#16 ≠ 0#16 then x.cr1 ||| 0x0400#16 else x.cr1
        msgv := some p.next, msgc := x.msgc - 1, inv := some ⟨v.snap, .b⟩ })) ∧
    (x.msgv = none ∨ x.msgc < 1 → exec .evStart s = .fault .startWithoutMessage)

/-- R165: EV.TX is selected, SB being clear, by ADDR or TXE with a write cursor; it decrements; if the count is then not
negative it sends the byte at `ptr` and advances `ptr` by 1; a Null `ptr` is `fault(null_buffer)` (20_memory.md R76). -/
def Obligations.EvTxResult : Prop :=
  ∀ (s : State) b x v, InInvocation s b x v →
    (v.stage = .a → (Selects s x v .evTx ↔ v.snap.getLsbD 0 = false ∧ x.flags.getLsbD 0 = false ∧
      (v.snap.getLsbD 1 = true ∨ v.snap.getLsbD 7 = true))) ∧
    (∀ p w, 1 ≤ x.dcnt → x.ptr = some p → memRead s.mem p = .ok w →
      exec .evTx s = .next (s.putBus b { x with
        dcnt := x.dcnt - 1, ptr := some (p + 1), txLog := x.txLog ++ [w]
        trLog := if s.cfg.traceEn = true
          then x.trLog ++ [⟨v.snap, x.trIsr, .phase, 0⟩, ⟨v.snap, x.trIsr, .send, (w.toNat : Int)⟩] else x.trLog
        inv := some ⟨v.snap, .b⟩ })) ∧
    (x.dcnt < 1 →
      exec .evTx s = .next (s.putBus b { x with dcnt := x.dcnt - 1, inv := some ⟨v.snap, .b⟩ })) ∧
    (1 ≤ x.dcnt → x.ptr = none → exec .evTx s = .fault .nullBuffer)

/-- R168 and R169: EV.RX is selected by RXNE when none of the three before it is, whatever the direction; it decrements; if
the count is then not negative it stores the byte DR holds at `ptr`, advances `ptr` by 1, and clears ACK when exactly one
byte remains; a Null `ptr` is `fault(null_buffer)` (20_memory.md R76). -/
def Obligations.EvRxResult : Prop :=
  ∀ (s : State) b x v, InInvocation s b x v →
    (v.stage = .a → (Selects s x v .evRx ↔ v.snap.getLsbD 6 = true ∧
      ¬Selects s x v .evStart ∧ ¬Selects s x v .evTx ∧ ¬Selects s x v .evRxAddr)) ∧
    (∀ p, 1 ≤ x.dcnt → x.ptr = some p →
      exec .evRx s = .next ({ s with mem := memWrite s.mem p x.dr }.putBus b { x with
        dcnt := x.dcnt - 1, ptr := some (p + 1)
        trLog := if s.cfg.traceEn = true then x.trLog ++ [TraceEntry.mk v.snap x.trIsr .recv (x.dcnt - 1)] else x.trLog
        cr1 := if x.dcnt - 1 = 1 then x.cr1 &&& ~~~0x0400#16 else x.cr1
        inv := some ⟨v.snap, .b⟩ })) ∧
    (x.dcnt < 1 →
      exec .evRx s = .next (s.putBus b { x with dcnt := x.dcnt - 1, inv := some ⟨v.snap, .b⟩ })) ∧
    (1 ≤ x.dcnt → x.ptr = none → exec .evRx s = .fault .nullBuffer)

/-- R166, R171 and R172: EV.RXADDR, selected by ADDR with a read cursor, sets ITBUFEN and records it; POST.BUFEN, selected when
bytes remain, sets it; POST.BUFDIS, selected when exactly none remains, clears it; all in `MODE = Interrupt` only. -/
def Obligations.BufferInterruptResult : Prop :=
  ∀ (s : State) b x v, InInvocation s b x v →
    (v.stage = .a → (Selects s x v .evRxAddr ↔ v.snap.getLsbD 0 = false ∧ x.flags.getLsbD 0 = true ∧
      v.snap.getLsbD 1 = true)) ∧
    (v.stage = .b → (Selects s x v .postBufEn ↔ s.cfg.mode = .interrupt ∧ 0 < x.dcnt) ∧
      (Selects s x v .postBufDis ↔ s.cfg.mode = .interrupt ∧ x.dcnt = 0)) ∧
    (s.cfg.mode = .interrupt → exec .evRxAddr s = .next (s.putBus b { x with
      trLog := if s.cfg.traceEn = true then x.trLog ++ [⟨v.snap, x.trIsr, .itbufen, 0⟩] else x.trLog
      cr2 := x.cr2 ||| 0x0400#16, inv := some ⟨v.snap, .b⟩ })) ∧
    (s.cfg.mode = .polled → exec .evRxAddr s = .next (s.putBus b { x with inv := some ⟨v.snap, .b⟩ })) ∧
    exec .postBufEn s = .next (s.putBus b { x with
      cr2 := if s.cfg.mode = .interrupt then x.cr2 ||| 0x0400#16 else x.cr2, inv := some ⟨v.snap, .c⟩ }) ∧
    exec .postBufDis s = .next (s.putBus b { x with
      cr2 := if s.cfg.mode = .interrupt then x.cr2 &&& ~~~0x0400#16 else x.cr2, inv := some ⟨v.snap, .c⟩ })

/-- R173 and R175: POST.BTF, selected by BTF when no byte remains, reads and discards DR, which changes nothing of I2CM, and
exactly one of its four branches comes next; RESTART, the branch of a next message without the no-restart flag, records
the repeated START and requests it; with nothing left to do nothing else happens. -/
def Obligations.EndOfMessageResult : Prop :=
  ∀ (s : State) b x v, InInvocation s b x v →
    (v.stage = .c → (Selects s x v .postBtf ↔ x.dcnt ≤ 0 ∧ v.snap.getLsbD 2 = true)) ∧
    (∀ p fl, v.stage = .sub → 0 < x.msgc → x.msgv = some p → fetchFlags s.mem p = .ok fl →
      ∀ i, Selects s x v i ↔ i = if fl &&& 0x0080#16 ≠ 0#16 then .postBtfSplice else .postBtfRestart) ∧
    (v.stage = .sub → x.msgc ≤ 0 → ∀ i, Selects s x v i ↔ i = if x.msgv ≠ none then .postBtfStop else .postBtfNone) ∧
    exec .postBtf s = .next (s.putBus b { x with inv := some ⟨v.snap, .sub⟩ }) ∧
    exec .postBtfRestart s = .next (s.putBus b { x with
      trLog := if s.cfg.traceEn = true then x.trLog ++ [⟨v.snap, x.trIsr, .restart, x.msgc⟩] else x.trLog
      cr1 := x.cr1 ||| 0x0100#16, inv := some ⟨v.snap, .d⟩ }) ∧
    exec .postBtfNone s = .next (s.putBus b { x with inv := some ⟨v.snap, .d⟩ })

/-- R174: POST.BTF.SPLICE, the branch of a next message with the no-restart flag, reloads the cursor from it, advances past it
and, in `MODE = Interrupt`, re-enables buffer interrupts; no START, no address byte, no ACK, no trace entry. -/
def Obligations.SpliceResult : Prop :=
  ∀ (s : State) b x v p m, InInvocation s b x v → x.msgv = some p → fetchMessage s.mem p = .ok m →
    (v.stage = .sub → 0 < x.msgc → (Selects s x v .postBtfSplice ↔ m.flags &&& 0x0080#16 ≠ 0#16)) ∧
    exec .postBtfSplice s = .next (s.putBus b { x with
      ptr := m.buffer, dcnt := (m.length : Int), flags := m.flags, msgv := some p.next, msgc := x.msgc - 1
      cr2 := if s.cfg.mode = .interrupt then x.cr2 ||| 0x0400#16 else x.cr2, inv := some ⟨v.snap, .d⟩ })

/-- R176: POST.BTF.STOP, the branch of no message left and a list installed, records and requests STOP, wakes a parked waiter
once (with a post in `MODE = Interrupt`) and clears the message pointer. -/
def Obligations.StopResult : Prop :=
  ∀ (s : State) b x v, InInvocation s b x v →
    (v.stage = .sub → (Selects s x v .postBtfStop ↔ x.msgc ≤ 0 ∧ x.msgv ≠ none)) ∧
    exec .postBtfStop s = .next (s.putBus b { x with
      trLog := if s.cfg.traceEn = true then x.trLog ++ [⟨v.snap, x.trIsr, .stop, 0⟩] else x.trLog
      cr1 := x.cr1 ||| 0x0200#16
      sig := if x.hs = .waiting ∧ s.cfg.mode = .interrupt then x.sig + 1 else x.sig
      hs := if x.hs = .waiting then .done else x.hs
      msgv := none, inv := some ⟨v.snap, .d⟩ })

/-- R178 to R181: POST.ERR, selected by any error flag, clears the seven error flags of SR1 and nothing else there, wakes a
parked waiter as STOP does, and issues no STOP, keeps the cursor, ACK and the interrupt enables; the last act of an
invocation, POST.LATCH, latches its snapshot, and the invocation is over. -/
def Obligations.ErrorAndLatchResult : Prop :=
  ∀ (s : State) b x v, InInvocation s b x v →
    (v.stage = .d → (Selects s x v .postErr ↔ v.snap &&& 0x0000DF00#32 ≠ 0#32) ∧
      (Selects s x v .postLatch ↔ v.snap &&& 0x0000DF00#32 = 0#32)) ∧
    (v.stage = .fin → Selects s x v .postLatch) ∧
    exec .postErr s = .next (s.putBus b { x with
      sr1 := x.sr1 &&& 0x20FF#16
      sig := if x.hs = .waiting ∧ s.cfg.mode = .interrupt then x.sig + 1 else x.sig
      hs := if x.hs = .waiting then .done else x.hs
      inv := some ⟨v.snap, .fin⟩ }) ∧
    exec .postLatch s = .next (s.putBus b { x with status := v.snap, inv := none })

/-- The frame of the sequencer: a TSM action or a message changes nothing of the machine but its own bus and, for EV.RX, the
byte at `ptr`; and of its bus only what the rule of that operation writes. -/
def Obligations.SequencerFrame : Prop :=
  ∀ i (s s' : State) b x v, isSequencer i = true → InInvocation s b x v → exec i s = .next s' →
    s'.cfg = s.cfg ∧ s'.handles = s.handles ∧ s'.nextHandle = s.nextHandle ∧ s'.threads = s.threads ∧
    s'.now = s.now ∧ s'.xperiphEn = s.xperiphEn ∧ s'.sink = s.sink ∧ s'.cur = s.cur ∧ s'.intr = s.intr ∧
    s'.pick = s.pick ∧ s'.dropAck = s.dropAck ∧ s'.sched = s.sched ∧
    (∀ c, c ≠ b → s'.bus? c = s.bus? c) ∧
    (∀ a, ¬(i = .evRx ∧ 1 ≤ x.dcnt ∧ x.ptr = some a) → memRead s'.mem a = memRead s.mem a) ∧
    ∃ x', s'.bus? b = some x' ∧
      x'.base = x.base ∧ x'.refs = x.refs ∧ x'.lock = x.lock ∧ x'.waiters = x.waiters ∧ x'.oar1 = x.oar1 ∧
      x'.oar2 = x.oar2 ∧ x'.dr = x.dr ∧ x'.sr2 = x.sr2 ∧ x'.ccr = x.ccr ∧ x'.trise = x.trise ∧
      x'.irqAttached = x.irqAttached ∧ x'.irqEnabled = x.irqEnabled ∧ x'.trIsr = x.trIsr ∧
      x'.cr1 &&& ~~~0x0700#16 = x.cr1 &&& ~~~0x0700#16 ∧ x'.cr2 &&& ~~~0x0400#16 = x.cr2 &&& ~~~0x0400#16 ∧
      (x'.cr1 ≠ x.cr1 → formatOf i = .m ∨ i = .evStart ∨ i = .evRx ∨ i = .postBtfRestart ∨ i = .postBtfStop) ∧
      (x'.cr2 ≠ x.cr2 → formatOf i = .m ∨ i = .evRxAddr ∨ i = .postBufEn ∨ i = .postBufDis ∨ i = .postBtfSplice) ∧
      (x'.sr1 ≠ x.sr1 → i = .postErr) ∧
      (x'.status ≠ x.status → i = .postLatch) ∧
      (x'.hs ≠ x.hs ∨ x'.sig ≠ x.sig → i = .postBtfStop ∨ i = .postErr) ∧
      (x'.msgv ≠ x.msgv → formatOf i = .m ∨ i = .evStart ∨ i = .postBtfSplice ∨ i = .postBtfStop) ∧
      (x'.msgc ≠ x.msgc ∨ x'.flags ≠ x.flags → formatOf i = .m ∨ i = .evStart ∨ i = .postBtfSplice) ∧
      (x'.dcnt ≠ x.dcnt ∨ x'.ptr ≠ x.ptr →
        formatOf i = .m ∨ i = .evStart ∨ i = .postBtfSplice ∨ i = .evTx ∨ i = .evRx) ∧
      (x'.trLog ≠ x.trLog → i = .evStart ∨ i = .evTx ∨ i = .evRxAddr ∨ i = .evRx ∨ i = .postBtfRestart
        ∨ i = .postBtfStop) ∧
      (x'.txLog ≠ x.txLog → formatOf i = .m ∨ i = .evStart ∨ i = .evTx)

/-! ### ORCH -/

/-- R201 and 20_memory.md R88: step 1 takes a free lock and goes on; a thread that was handed the lock goes on; while another
thread holds it the thread stays blocked, among the waiters. -/
def Obligations.LockResult : Prop :=
  ∀ (s : State) t x y, InTxn s t x y →
    (y.lock = .free → exec .orchLock s = .next ((s.putBus x.bus { y with lock := .held t }).putTxn t
      { x with step := if s.cfg.pinConflict x.bus = true then 2 else 3 })) ∧
    (y.lock = .held t → exec .orchLock s = .next ((s.putBus x.bus y).putTxn t
      { x with step := if s.cfg.pinConflict x.bus = true then 2 else 3 })) ∧
    (∀ u, y.lock = .held u → u ≠ t → exec .orchLock s = .next (s.putBus x.bus
      { y with waiters := if t ∈ y.waiters then y.waiters else y.waiters ++ [t] }))

/-- R202 and R225: with a pin conflict step 2 saves the other peripheral's enable and disables it, and step 16 restores the
saved value; without one both do nothing. -/
def Obligations.PinConflictResult : Prop :=
  ∀ (s : State) t x y, InTxn s t x y →
    (s.cfg.pinConflict x.bus = true →
      exec .orchXperiphOff s
        = .next ({ s with xperiphEn := false }.putTxn t { x with step := 3, savedX := s.xperiphEn }) ∧
      exec .orchXperiphOn s = .next ({ s with xperiphEn := x.savedX }.putTxn t { x with step := 17 })) ∧
    (s.cfg.pinConflict x.bus = false →
      exec .orchXperiphOff s = .next (s.putTxn t { x with step := 3 }) ∧
      exec .orchXperiphOn s = .next (s.putTxn t { x with step := 17 }))

/-- R203 and R224: steps 3 and 15 poll CR1.STOP: they go on when it is 0, go on with a debug line when the time-out is over,
and poll again before that; step 15 does nothing without a pin conflict. -/
def Obligations.WaitStopResult : Prop :=
  (∀ (s : State) t x y i n, InTxn s t x y →
    (i = .orchWaitStop ∧ n = 4) ∨ (i = .orchWaitStop2 ∧ n = 16 ∧ s.cfg.pinConflict x.bus = true) →
    (y.cr1 &&& 0x0200#16 = 0#16 → exec i s = .next (s.putTxn t { x with step := n, stopT0 := none })) ∧
    (y.cr1 &&& 0x0200#16 ≠ 0#16 → s.cfg.stopWaitTicks ≤ s.now - x.stopT0.getD s.now →
      exec i s = .next ({ s with sink := s.sink ++ [SinkItem.stopPending x.bus] }.putTxn t
        { x with step := n, stopT0 := none })) ∧
    (y.cr1 &&& 0x0200#16 ≠ 0#16 → s.now - x.stopT0.getD s.now < s.cfg.stopWaitTicks →
      exec i s = .next (s.putTxn t { x with stopT0 := some (x.stopT0.getD s.now) }))) ∧
  (∀ (s : State) t x y, InTxn s t x y → s.cfg.pinConflict x.bus = false →
    exec .orchWaitStop2 s = .next (s.putTxn t { x with step := 16 }))

/-- R204, R205, R206, R207, R209 and R210: step 4 clears the seven error flags of SR1; step 5 clears START, STOP and PEC of CR1
and keeps the other bits; step 6 installs the list and the count, re-initialises the rest of the cursor and resets the trace;
step 8 zeroes the latch and requests START. Step 7 is CLK. -/
def Obligations.SetUpResult : Prop :=
  ∀ (s : State) t x y, InTxn s t x y →
    exec .orchClrErr s = .next ((s.putBus x.bus { y with sr1 := y.sr1 &&& 0x20FF#16 }).putTxn t { x with step := 5 }) ∧
    exec .orchClrReq s = .next ((s.putBus x.bus { y with cr1 := y.cr1 &&& ~~~0x1300#16 }).putTxn t { x with step := 6 }) ∧
    exec .orchInstall s = .next ((s.putBus x.bus { y with
      msgv := some x.messages, msgc := x.count, ptr := none, dcnt := 0, flags := 0x0000#16
      trLog := if s.cfg.traceEn = true then [] else y.trLog
      trIsr := if s.cfg.traceEn = true then 0 else y.trIsr }).putTxn t { x with step := 7 }) ∧
    exec .orchStart s = .next ((s.putBus x.bus { y with status := 0#32, cr1 := y.cr1 ||| 0x0100#16 }).putTxn t
      { x with step := 9 })

/-- R211, R212, R214 and R218: step 9 begins by arming the error and event interrupts and marking Waiting in one step, with
the deadline `TIMEOUT_TICKS` from now (`MODE = Interrupt`); or by marking Waiting and invoking TSM once, from now on
(`MODE = Polled`). -/
def Obligations.WaitBegins : Prop :=
  ∀ (s : State) t x y, InTxn s t x y → x.wait = .fresh →
    (s.cfg.mode = .interrupt → exec .orchWait s = .next ((s.putBus x.bus { y with
      cr2 := y.cr2 ||| 0x0300#16, hs := .waiting }).putTxn t
        { x with wait := .blocked (s.now + s.cfg.timeoutTicks) })) ∧
    (s.cfg.mode = .polled → exec .orchWait s = .next ((s.putBus x.bus { y with
      hs := .waiting, trIsr := if s.cfg.traceEn = true then y.trIsr + 1 else y.trIsr
      inv := some ⟨combine y.sr1 y.sr2, .a⟩ }).putTxn t { x with wait := .polling s.now }))

/-- R213, R215, R217 and R219: the blocked wait answers Interrupted when the input says so, Woken when a post is pending,
TimedOut when none is and the deadline has come, and otherwise blocks; woken or interrupted it goes on only if `hs` is Done.
When it goes on `hs` is Idle, the three enables are cleared, and step 11 or 10 comes next by the outcome. -/
def Obligations.WaitAnswers : Prop :=
  ∀ (s : State) t x y d, InTxn s t x y → x.wait = .blocked d → s.cfg.mode = .interrupt →
    (s.intr = true → y.hs = .done → exec .orchWait s = .next ((s.putBus x.bus { y with
      hs := .idle, cr2 := y.cr2 &&& ~~~0x0700#16 }).putTxn t
        { x with outcome := some .completed, step := 11, wait := .fresh })) ∧
    (s.intr = false → 0 < y.sig → y.hs = .done → exec .orchWait s = .next ((s.putBus x.bus { y with
      sig := y.sig - 1, hs := .idle, cr2 := y.cr2 &&& ~~~0x0700#16 }).putTxn t
        { x with outcome := some .completed, step := 11, wait := .fresh })) ∧
    (s.intr = false → y.sig = 0 → d ≤ s.now → exec .orchWait s = .next ((s.putBus x.bus { y with
      hs := .idle, cr2 := y.cr2 &&& ~~~0x0700#16 }).putTxn t
        { x with outcome := some .timedOut, step := 10, wait := .fresh })) ∧
    (s.intr = true → y.hs ≠ .done → exec .orchWait s = .next (s.putBus x.bus y)) ∧
    (s.intr = false → 0 < y.sig → y.hs ≠ .done →
      exec .orchWait s = .next (s.putBus x.bus { y with sig := y.sig - 1 })) ∧
    (s.intr = false → y.sig = 0 → s.now < d → exec .orchWait s = .next s)

/-- R214 and R219: the polled loop, once an invocation has returned, ends when `hs` is Done or the time-out is over, with the
outcome Completed exactly when it is Done, and otherwise invokes TSM again. -/
def Obligations.PollAnswers : Prop :=
  ∀ (s : State) t x y t0, InTxn s t x y → x.wait = .polling t0 → s.cfg.mode = .polled →
    (y.hs = .done → exec .orchWait s = .next ((s.putBus x.bus { y with hs := .idle }).putTxn t
      { x with outcome := some .completed, step := 11, wait := .fresh })) ∧
    (y.hs ≠ .done → s.cfg.timeoutTicks ≤ s.now - t0 →
      exec .orchWait s = .next ((s.putBus x.bus { y with hs := .idle }).putTxn t
        { x with outcome := some .timedOut, step := 10, wait := .fresh })) ∧
    (y.hs ≠ .done → s.now - t0 < s.cfg.timeoutTicks → exec .orchWait s = .next (s.putBus x.bus { y with
      trIsr := if s.cfg.traceEn = true then y.trIsr + 1 else y.trIsr
      inv := some ⟨combine y.sr1 y.sr2, .a⟩ }))

/-- R220: step 10 re-reads the status for the sink, makes the result Timeout and clears START; it skips to step 14. -/
def Obligations.TimeoutResult : Prop :=
  ∀ (s : State) t x y, InTxn s t x y →
    exec .orchTimeout s = .next (({ s with
      sink := s.sink ++ [SinkItem.timedOut x.bus y.cr1 (combine y.sr1 y.sr2)] }.putBus x.bus
        { y with cr1 := y.cr1 &&& ~~~0x0100#16 }).putTxn t
          { x with st := combine y.sr1 y.sr2, result := .timeout, step := 14 })

/-- R221, R222 and 60_exceptions.md R291: step 11 masks the latched status to its low 16 bits, and steps 12 and 13 together
make the result the class of the masked status. What each of the two does alone is the model's split of R222 (log entry
14). -/
def Obligations.ClassifyResult : Prop :=
  ∀ (s : State) t x y, InTxn s t x y →
    exec .orchMask s = .next (s.putTxn t { x with st := y.status &&& 0x0000FFFF#32, step := 12 }) ∧
    exec .orchClassify s = .next (s.putTxn t { x with result := classifyErrors x.st, step := 13 }) ∧
    exec .orchBusyCheck s = .next (s.putTxn t { x with result := busyCheck x.st x.result, step := 14 }) ∧
    ∃ u w, exec .orchMask s = .next u ∧ exec .orchClassify u = .next w ∧
      exec .orchBusyCheck w = .next (s.putTxn t { x with
        st := y.status &&& 0x0000FFFF#32, result := classify (y.status &&& 0x0000FFFF#32), step := 14 })

/-- R223 and 44_trace.md R274, R276: step 14 appends the last `TRACE_CAP` entries of the log to the sink, oldest first, when
tracing is compiled in. -/
def Obligations.DumpResult : Prop :=
  ∀ (s : State) t x y, InTxn s t x y →
    exec .orchDump s = .next ({ s with
      sink := if s.cfg.traceEn = true
        then s.sink ++ [SinkItem.dump x.bus (y.trLog.drop (y.trLog.length - s.cfg.traceCap))] else s.sink }.putTxn t
          { x with step := if s.cfg.pinConflict x.bus = true then 15 else 17 })

/-- R226 and 20_memory.md R88: step 17 releases the lock, to a blocked thread if there is one (the input chooses which, D27),
and the command returns the result. -/
def Obligations.UnlockResult : Prop :=
  ∀ (s : State) t x y, InTxn s t x y →
    (y.waiters = [] → exec .orchUnlock s = .next { s with
      buses := kput s.buses x.bus { y with lock := .free }
      threads := kput s.threads t ⟨none, some (.kind x.result)⟩ }) ∧
    (y.waiters ≠ [] → ∃ u, u ∈ y.waiters ∧ exec .orchUnlock s = .next { s with
      buses := kput s.buses x.bus { y with lock := .held u, waiters := y.waiters.filter (· ≠ u) }
      threads := kput s.threads t ⟨none, some (.kind x.result)⟩ }) ∧
    (∀ u, u ∈ y.waiters → ∃ n, exec .orchUnlock { s with pick := n } = .next { s with
      pick := n
      buses := kput s.buses x.bus { y with lock := .held u, waiters := y.waiters.filter (· ≠ u) }
      threads := kput s.threads t ⟨none, some (.kind x.result)⟩ })

/-- The frame of the orchestrator: an ORCH step or a CLK mode changes nothing of the machine but its own bus, its own thread,
and, where its rule says so, the other peripheral's enable and the sink; and of its bus only what the rule of that step
writes. -/
def Obligations.OrchestratorFrame : Prop :=
  ∀ i (s s' : State) t x y, isOrchestrator i = true → InTxn s t x y → exec i s = .next s' →
    s'.cfg = s.cfg ∧ s'.handles = s.handles ∧ s'.nextHandle = s.nextHandle ∧ s'.mem = s.mem ∧ s'.now = s.now ∧
    s'.cur = s.cur ∧ s'.intr = s.intr ∧ s'.pick = s.pick ∧ s'.dropAck = s.dropAck ∧ s'.sched = s.sched ∧
    (∀ a, memRead s'.mem a = memRead s.mem a) ∧
    (∀ c, c ≠ x.bus → s'.bus? c = s.bus? c) ∧ (∀ u, u ≠ t → s'.thread u = s.thread u) ∧
    (s'.xperiphEn ≠ s.xperiphEn → i = .orchXperiphOff ∨ i = .orchXperiphOn) ∧
    (s'.sink ≠ s.sink → i = .orchWaitStop ∨ i = .orchWaitStop2 ∨ i = .orchTimeout ∨ i = .orchDump) ∧
    ∃ y', s'.bus? x.bus = some y' ∧
      y'.base = y.base ∧ y'.refs = y.refs ∧ y'.oar2 = y.oar2 ∧ y'.dr = y.dr ∧ y'.sr2 = y.sr2 ∧ y'.txLog = y.txLog ∧
      y'.irqAttached = y.irqAttached ∧ y'.irqEnabled = y.irqEnabled ∧
      y'.cr1 &&& ~~~0x1700#16 = y.cr1 &&& ~~~0x1700#16 ∧ y'.cr2 &&& ~~~0x0700#16 = y.cr2 &&& ~~~0x0700#16 ∧
      (y'.lock ≠ y.lock ∨ y'.waiters ≠ y.waiters → i = .orchLock ∨ i = .orchUnlock) ∧
      (y'.hs ≠ y.hs ∨ y'.sig ≠ y.sig ∨ y'.cr2 ≠ y.cr2 ∨ y'.inv ≠ y.inv → i = .orchWait) ∧
      (y'.msgv ≠ y.msgv ∨ y'.msgc ≠ y.msgc ∨ y'.dcnt ≠ y.dcnt ∨ y'.ptr ≠ y.ptr ∨ y'.flags ≠ y.flags
        ∨ y'.trLog ≠ y.trLog → i = .orchInstall) ∧
      (y'.trIsr ≠ y.trIsr → i = .orchInstall ∨ i = .orchWait) ∧
      (y'.status ≠ y.status → i = .orchStart) ∧
      (y'.sr1 ≠ y.sr1 → i = .orchClrErr) ∧
      (y'.cr1 ≠ y.cr1 → i = .orchClrReq ∨ isClk i = true ∨ i = .orchStart ∨ i = .orchTimeout) ∧
      (y'.ccr ≠ y.ccr ∨ y'.trise ≠ y.trise ∨ y'.oar1 ≠ y.oar1 → isClk i = true)

/-! ### CLK -/

/-- R142 to R148: each CLK mode writes its divider with its FS and DUTY bits, its rise time and the own-address bit, and leaves
CR1 as it was, but for ACK, which the line engine may clear while PE is 0 (10_state.md R45, R48; log entry 3). Step 7 runs the
mode that the frequency and `FAST_DUTY` select (R110, R208) and goes on to step 8; a mode run where `FAST_DUTY` selects the
other one is the model's choice (log entry 29). -/
def Obligations.ClkModeResult : Prop :=
  ∀ (s : State) t x y d i div tr bits, InTxn s t x y → s.handle? x.handle = some d →
    (i = .clkStd ∧ 0 < d.frequency ∧ d.frequency ≤ 100000 ∧ bits = 0x0000#16 ∧
        div = max 4 (s.cfg.pclk / (2 * d.frequency)) ∧ tr = s.cfg.pclk / 1000000 + 1
      ∨ i = .clkFast2 ∧ 100000 < d.frequency ∧ d.frequency ≤ 400000 ∧ bits = 0x8000#16 ∧
        div = max 1 (s.cfg.pclk / (3 * d.frequency)) ∧ tr = s.cfg.pclk / 1000000 * 300 / 1000 + 1
      ∨ i = .clkFast16_9 ∧ 100000 < d.frequency ∧ d.frequency ≤ 400000 ∧ bits = 0xC000#16 ∧
        div = max 1 (s.cfg.pclk / (25 * d.frequency)) ∧ tr = s.cfg.pclk / 1000000 * 300 / 1000 + 1) →
    div ≤ 4095 → tr ≤ 63 →
    ∃ u, u = s.putBus x.bus { y with
        ccr := bits ||| BitVec.ofNat 16 div, trise := BitVec.ofNat 16 tr, oar1 := 0x4000#16
        cr1 := if s.dropAck = true then y.cr1 &&& ~~~0x0400#16 else y.cr1 } ∧
      exec i s = .next u ∧
      ((i = .clkFast2 → s.cfg.fastDuty = .duty2) → (i = .clkFast16_9 → s.cfg.fastDuty = .duty16_9) →
        exec .orchClk s = .next (u.putTxn t { x with step := 8 }))

/-- R151: a frequency of 0 or above 400 000 Hz, a divider above 4095 or a rise time above 63 is `fault(clk_out_of_contract)` at
step 7. -/
def Obligations.ClkOutOfContract : Prop :=
  ∀ (s : State) t x y d, InTxn s t x y → s.handle? x.handle = some d →
    (d.frequency = 0 ∨ 400000 < d.frequency
      ∨ 0 < d.frequency ∧ d.frequency ≤ 100000 ∧
        (4095 < s.cfg.pclk / (2 * d.frequency) ∨ 63 < s.cfg.pclk / 1000000 + 1)
      ∨ 100000 < d.frequency ∧ d.frequency ≤ 400000 ∧ 63 < s.cfg.pclk / 1000000 * 300 / 1000 + 1
      ∨ 100000 < d.frequency ∧ d.frequency ≤ 400000 ∧ s.cfg.fastDuty = .duty2 ∧
        4095 < s.cfg.pclk / (3 * d.frequency)
      ∨ 100000 < d.frequency ∧ d.frequency ≤ 400000 ∧ s.cfg.fastDuty = .duty16_9 ∧
        4095 < s.cfg.pclk / (25 * d.frequency)) →
    exec .orchClk s = .fault .clkOutOfContract

/-- R149: the divider that step 7 leaves in CCR is at least 4 in standard mode and at least 1 in fast mode; and running CLK
again with the same inputs changes nothing. This is said of a mode that the frequency does not select too (log entry 29). -/
def Obligations.ClkIdempotent : Prop :=
  ∀ (s s' : State) i t x y d, formatOf i = .k → InTxn s t x y → s.handle? x.handle = some d →
    exec i s = .next s' →
    exec i s' = .next s' ∧
      ∃ y', s'.bus? x.bus = some y' ∧ 1 ≤ (y'.ccr &&& 0x0FFF#16).toNat ∧
        (i = .clkStd → 4 ≤ (y'.ccr &&& 0x0FFF#16).toNat)

/-! ### The classifier -/

/-- R291 and R292: the first flag set in the fixed order BERR, ARLO, AF, OVR, PECERR, TIMEOUT, SMBALERT gives the ErrorKind,
and BUSY alone gives ResourceBusy. -/
def Obligations.ClassifierPriority : Prop :=
  ∀ st : Word32,
    (st.getLsbD 8 = true → classify st = .ioError) ∧
    (st.getLsbD 8 = false → st.getLsbD 9 = true → classify st = .resourceBusy) ∧
    (st &&& 0x00000300#32 = 0#32 → st.getLsbD 10 = true → classify st = .noSuchDevice) ∧
    (st &&& 0x00000700#32 = 0#32 → st.getLsbD 11 = true → classify st = .ioError) ∧
    (st &&& 0x00000F00#32 = 0#32 → st.getLsbD 12 = true → classify st = .protocolError) ∧
    (st &&& 0x00001F00#32 = 0#32 → st.getLsbD 14 = true → classify st = .timeout) ∧
    (st &&& 0x00005F00#32 = 0#32 → st.getLsbD 15 = true → classify st = .interrupted) ∧
    (st &&& 0x0000DF00#32 = 0#32 → st.getLsbD 17 = true → classify st = .resourceBusy)

/-- R295: the class is Ok exactly when no error flag and not BUSY is set; bits outside that mask never matter. -/
def Obligations.ClassifiesOk : Prop :=
  (∀ st : Word32, classify st = .ok ↔ st &&& 0x0002DF00#32 = 0#32) ∧
  (∀ st : Word32, classify st = classify (st &&& 0x0002DF00#32))

/-! ### The register port and the line engine -/

/-- R72, R73, R74, R75 and R79: a 16-bit access at the offset of a register reads or writes it; any other width is
`fault(bad_register_width)`, at a wrong offset too (the model's choice, log entry 28); any other offset
`fault(unmapped_register)`, a value other than 0 written to SR1 `fault(bad_sr1_write)`; 0 written to SR1 clears the error
flags only; a write of DR is delivered and does not change what a read returns; a write of OAR2 or SR2, which no rule
makes, stores the value (the model's choice, log entry 23); `RegModify16` is the read and the write of R73 at every offset;
the combined status word has SR1 in its low half and SR2 in its high half. -/
def Obligations.RegisterPort : Prop :=
  ∀ (x : Bus) (v : Half),
    (∀ off w, w ≠ 16 → x.portRead off w = .error .badRegisterWidth ∧ x.portWrite off w v = .error .badRegisterWidth) ∧
    (∀ off, off % 4 ≠ 0 ∨ 0x20 < off →
      x.portRead off 16 = .error .unmappedRegister ∧ x.portWrite off 16 v = .error .unmappedRegister) ∧
    (v ≠ 0#16 → x.portWrite 0x14 16 v = .error .badSr1Write) ∧
    x.portWrite 0x14 16 0#16 = .ok { x with sr1 := x.sr1 &&& 0x20FF#16 } ∧
    x.portRead 0x00 16 = .ok x.cr1 ∧ x.portWrite 0x00 16 v = .ok { x with cr1 := v } ∧
    x.portRead 0x04 16 = .ok x.cr2 ∧ x.portWrite 0x04 16 v = .ok { x with cr2 := v } ∧
    x.portRead 0x08 16 = .ok x.oar1 ∧ x.portWrite 0x08 16 v = .ok { x with oar1 := v } ∧
    x.portRead 0x0C 16 = .ok x.oar2 ∧ x.portWrite 0x0C 16 v = .ok { x with oar2 := v } ∧
    x.portRead 0x10 16 = .ok (x.dr.zeroExtend 16) ∧
    x.portWrite 0x10 16 v = .ok { x with txLog := x.txLog ++ [v.setWidth 8] } ∧
    x.portRead 0x14 16 = .ok x.sr1 ∧
    x.portRead 0x18 16 = .ok x.sr2 ∧ x.portWrite 0x18 16 v = .ok { x with sr2 := v } ∧
    x.portRead 0x1C 16 = .ok x.ccr ∧ x.portWrite 0x1C 16 v = .ok { x with ccr := v } ∧
    x.portRead 0x20 16 = .ok x.trise ∧ x.portWrite 0x20 16 v = .ok { x with trise := v } ∧
    (∀ clr set, x.portModify 0x00 16 clr set = .ok { x with cr1 := (x.cr1 &&& ~~~clr) ||| set } ∧
      x.portModify 0x04 16 clr set = .ok { x with cr2 := (x.cr2 &&& ~~~clr) ||| set }) ∧
    (∀ off w clr set r, x.portRead off w = .ok r →
      x.portModify off w clr set = x.portWrite off w ((r &&& ~~~clr) ||| set)) ∧
    (∀ off w clr set f, x.portRead off w = .error f → x.portModify off w clr set = .error f) ∧
    (∀ n, n < 16 → x.readStatus.getLsbD n = x.sr1.getLsbD n ∧ x.readStatus.getLsbD (n + 16) = x.sr2.getLsbD n)

/-- R45: every move of the environment on a bus is one the line engine's liberties allow, and every change the liberties allow
is made by moves of the environment. -/
def Obligations.LineEngineLiberties : Prop :=
  (∀ (s : State) m b x, s.bus? b = some x → ∃ y, (s.applyEnv m).bus? b = some y ∧ LineEngineMay x y) ∧
  (∀ (s : State) b x y, s.bus? b = some x → LineEngineMay x y →
    ∃ ms, (s.applyMoves ms).bus? b = some y ∧ (∀ c, c ≠ b → (s.applyMoves ms).bus? c = s.bus? c) ∧
      (s.applyMoves ms).mem = s.mem ∧ (s.applyMoves ms).handles = s.handles ∧
      (s.applyMoves ms).threads = s.threads ∧ (s.applyMoves ms).now = s.now)

/-! ### Whole-machine rules -/

/-- R52 and R340: the reset state on any platform: no handle, no caller inside a command, time 0, and every bus unpowered with
its lock free, the handshake Idle, no post, no message, an empty trace, every register 0 but TRISE = 0x0002. -/
def Obligations.ResetState : Prop :=
  ∀ c : Config,
    (State.resetWith c).handles = [] ∧ (State.resetWith c).now = 0 ∧ (State.resetWith c).sink = [] ∧
    (∀ t, (State.resetWith c).thread t = ⟨none, none⟩) ∧
    (∀ b, (∃ x, (State.resetWith c).bus? b = some x) ↔ 1 ≤ b ∧ b ≤ c.nbus) ∧
    ∀ b x, (State.resetWith c).bus? b = some x →
      c.busParam? b = some ⟨x.base, c.pinConflict b⟩ ∧
      x.refs = 0 ∧ x.lock = .free ∧ x.waiters = [] ∧ x.hs = .idle ∧ x.sig = 0 ∧ x.msgv = none ∧ x.trLog = [] ∧
      x.trIsr = 0 ∧ x.cr1 = 0x0000#16 ∧ x.cr2 = 0x0000#16 ∧ x.oar1 = 0x0000#16 ∧ x.oar2 = 0x0000#16 ∧ x.dr = 0x00#8 ∧
      x.sr1 = 0x0000#16 ∧ x.sr2 = 0x0000#16 ∧ x.ccr = 0x0000#16 ∧ x.trise = 0x0002#16 ∧ x.irqAttached = false ∧
      x.irqEnabled = false ∧ x.inv = none

/-- The invariants below hold at reset, on every platform. -/
def Obligations.InvariantsAtReset : Prop :=
  ∀ c : Config,
    RegistersLegal (State.resetWith c) ∧ MemoryCanonical (State.resetWith c) ∧ Coherent (State.resetWith c) ∧
    DoneIsPosted (State.resetWith c) ∧ PoweredIsEnabled (State.resetWith c) ∧ RefsCountHandles (State.resetWith c)

/-- Every step keeps the registers legal (R37 to R39, R43, R44, R112): no reserved or unused bit is ever set. -/
def Obligations.RegistersStayLegal : Prop :=
  ∀ s s' : State, RegistersLegal s → step s = .next s' → RegistersLegal s'

/-- Every step keeps caller memory in its canonical form. -/
def Obligations.MemoryStaysCanonical : Prop :=
  ∀ s s' : State, MemoryCanonical s → step s = .next s' → MemoryCanonical s'

/-- Every step keeps the lock with the thread inside steps 2 to 17, and every bus quiet outside the wait of step 9: no
invocation of TSM, no interrupt enable and no parked waiter there (20_memory.md R86, R88; 10_state.md R24; 60_exceptions.md
R301; 41_transfer_state_machine.md R182). -/
def Obligations.StaysCoherent : Prop :=
  ∀ s s' : State, Coherent s → step s = .next s' → Coherent s'

/-- In `MODE = Interrupt` every step keeps a post pending while Done stands (R215, R216). In `MODE = Polled` there is no post
(41_transfer_state_machine.md R182) and nothing is claimed. -/
def Obligations.DoneStaysPosted : Prop :=
  ∀ s s' : State, DoneIsPosted s → step s = .next s' → DoneIsPosted s'

/-- R215: in `MODE = Interrupt` a wait that ends TimedOut found `hs` not Done. -/
def Obligations.TimedOutWasNotDone : Prop :=
  ∀ (s s' : State) t x y d x', DoneIsPosted s → InTxn s t x y → s.cfg.mode = .interrupt → x.step = 9 →
    x.wait = .blocked d → exec .orchWait s = .next s' → (s'.thread t).txn = some x' → x'.step = 10 → y.hs ≠ .done

/-- Every step keeps PE set exactly on the powered buses (R255, R317). -/
def Obligations.PoweredStaysEnabled : Prop :=
  ∀ s s' : State, PoweredIsEnabled s → step s = .next s' → PoweredIsEnabled s'

/-- Every step keeps the reference count of a bus equal to the number of its live handles (R22, R31). -/
def Obligations.RefsStayCounted : Prop :=
  ∀ s s' : State, RefsCountHandles s → step s = .next s' → RefsCountHandles s'

/-- R88 and R228: while a thread holds the lock of a bus, no step of another thread whose transaction is on that bus changes
the bus, but that the thread may join the blocked threads, at the end of their list. -/
def Obligations.LockExcludes : Prop :=
  ∀ (s s' : State) t u a p d r x y, Coherent s → s.sched = .run u a p d :: r → (s.thread u).txn = some x →
    s.bus? x.bus = some y → y.lock = .held t → t ≠ u → step s = .next s' →
    ∃ ws, (ws = y.waiters ∨ ws = y.waiters ++ [u]) ∧ s'.bus? x.bus = some { y with waiters := ws } ∧ (∀ c, c ≠ x.bus → s'.bus? c = s.bus? c)

/-- R256 and R314, as far as writing goes: a step of a thread inside a transaction changes no bus but that transaction's, and
a step of an interrupt context changes no bus but its own. What they read is not stated. -/
def Obligations.BusesAreIndependent : Prop :=
  (∀ (s s' : State) t a p d r x, s.sched = .run t a p d :: r → (s.thread t).txn = some x → step s = .next s' →
    ∀ c, c ≠ x.bus → s'.bus? c = s.bus? c) ∧
  (∀ (s s' : State) b r, s.sched = .irq b :: r → step s = .next s' → ∀ c, c ≠ b → s'.bus? c = s.bus? c)

/-- R21 and R9: no step changes the platform's parameters or a bus's base address. -/
def Obligations.PlatformIsFixed : Prop :=
  ∀ s s' : State, step s = .next s' → s'.cfg = s.cfg ∧
    ∀ b x, s.bus? b = some x → ∃ y, s'.bus? b = some y ∧ y.base = x.base

/-! ### The descriptor fetch -/

/-- 30_encoding.md R101 and 20_memory.md R77, R79, R91: `Msg[p]` is the twelve bytes in memory at `p` at the moment of the
fetch, little-endian fields, the next descriptor 12 bytes on; a negative length or a misaligned pointer is
`fault(bad_descriptor)`, the misaligned pointer whatever memory holds (log entry 21). `Msg[p].flags` alone is bytes 2 and 3.
A byte nothing has written is `fault(unwritten_state)` (log entry 5), and a buffer field of 0 is Null (log entry 6). A list
in storage of the call (log entry 8) gives its messages one after the other. EV.START, the splice and the choice of the
branch of POST.BTF stop with the fault of their fetch. -/
def Obligations.DescriptorFetch : Prop :=
  (∀ mem a, a % 4 ≠ 0 →
    fetchMessage mem (.mem a) = .error .badDescriptor ∧ fetchFlags mem (.mem a) = .error .badDescriptor) ∧
  (∀ mem a (f : Nat → Byte), a % 4 = 0 → (∀ k, k < 12 → memRead mem (a + k) = .ok (f k)) →
    ∀ p n, p = (f 4).toNat + 256 * (f 5).toNat + 65536 * (f 6).toNat + 16777216 * (f 7).toNat →
      n = (f 8).toNat + 256 * (f 9).toNat + 65536 * (f 10).toNat + 16777216 * (f 11).toNat →
      (n < 2147483648 → fetchMessage mem (.mem a) = .ok
        ⟨BitVec.ofNat 16 ((f 0).toNat + 256 * (f 1).toNat), BitVec.ofNat 16 ((f 2).toNat + 256 * (f 3).toNat),
          if p = 0 then none else some p, n⟩) ∧
      (2147483648 ≤ n → fetchMessage mem (.mem a) = .error .badDescriptor)) ∧
  (∀ mem a (f : Nat → Byte), a % 4 = 0 → memRead mem (a + 2) = .ok (f 2) → memRead mem (a + 3) = .ok (f 3) →
    fetchFlags mem (.mem a) = .ok (BitVec.ofNat 16 ((f 2).toNat + 256 * (f 3).toNat))) ∧
  (∀ mem a k, a % 4 = 0 → k < 12 → memRead mem (a + k) = .error .unwrittenState →
    fetchMessage mem (.mem a) = .error .unwrittenState ∧
    (k = 2 ∨ k = 3 → fetchFlags mem (.mem a) = .error .unwrittenState)) ∧
  (∀ a, (MsgPtr.mem a).next = .mem (a + 12)) ∧
  (∀ mem m r, fetchMessage mem (.call (m :: r)) = .ok m ∧ fetchFlags mem (.call (m :: r)) = .ok m.flags ∧
    (MsgPtr.call (m :: r)).next = .call r) ∧
  (∀ (s : State) b x v p e, InInvocation s b x v → x.msgv = some p → fetchMessage s.mem p = .error e →
    (1 ≤ x.msgc → exec .evStart s = .fault e) ∧ exec .postBtfSplice s = .fault e) ∧
  (∀ (s : State) b r x v p e, s.sched = .irq b :: r → s.cfg.mode = .interrupt → s.bus? b = some x → x.inv = some v →
    v.stage = .sub → 0 < x.msgc → x.msgv = some p → fetchFlags s.mem p = .error e → step s = .fault e)
end

