-- ==== Sys2Proof/Laws/Bytes.lean ====
section
/-! SUPPORT. The fields of an encoding read back: bytes, 16-bit and 32-bit fields, signed numbers, pointers, handles. -/

namespace Sys2Proof

theorem fromLe16_le16 {n : Nat} (h : n < 65536) : fromLe16 (BitVec.ofNat 8 n) (BitVec.ofNat 8 (n / 256)) = n := by
  simp only [fromLe16, BitVec.toNat_ofNat]
  omega

theorem fromLe32_le32 {n : Nat} (h : n < 4294967296) :
    fromLe32 (BitVec.ofNat 8 n) (BitVec.ofNat 8 (n / 256)) (BitVec.ofNat 8 (n / 65536))
      (BitVec.ofNat 8 (n / 16777216)) = n := by
  simp only [fromLe32, BitVec.toNat_ofNat]
  omega

theorem ofSigned_lt (i : Int) : ofSigned i < 4294967296 := by
  simp only [ofSigned]
  omega

theorem toSigned_ofSigned {i : Int} (h : WellFormed.int32 i = true) : toSigned (ofSigned i) = i := by
  simp only [WellFormed.int32, Bool.and_eq_true, decide_eq_true_eq] at h
  unfold toSigned ofSigned
  by_cases c : 0 ≤ i
  · rw [if_pos (by omega)]; omega
  · rw [if_neg (by omega)]; omega

theorem ofPointer_lt {p : Option Nat} (h : WellFormed.pointer p = true) : ofPointer p < 4294967296 := by
  cases p with
  | none => simp [ofPointer]
  | some a =>
    simp only [WellFormed.pointer, Bool.and_eq_true, decide_eq_true_eq] at h
    exact h.2

theorem toPointer_ofPointer {p : Option Nat} (h : WellFormed.pointer p = true) : toPointer (ofPointer p) = p := by
  cases p with
  | none => rfl
  | some a =>
    simp only [WellFormed.pointer, Bool.and_eq_true, decide_eq_true_eq] at h
    simp [toPointer, ofPointer, show a ≠ 0 by omega]

theorem ofHandle_lt {k : Option Nat} (h : WellFormed.handle k = true) : ofHandle k < 4294967296 := by
  cases k with
  | none => decide
  | some a =>
    simp only [WellFormed.handle, decide_eq_true_eq] at h
    simp only [ofHandle, Option.getD_some]
    omega

theorem toHandle_ofHandle {k : Option Nat} (h : WellFormed.handle k = true) : toHandle (ofHandle k) = k := by
  cases k with
  | none => rfl
  | some a =>
    simp only [WellFormed.handle, decide_eq_true_eq] at h
    simp [toHandle, ofHandle, show a ≠ 4294967295 by omega]

@[simp] theorem words_zero (r : List Byte) : words 0 r = some [] := by
  cases r <;> rfl

theorem words_le32 {n : Nat} (h : n < 4294967296) (k : Nat) (r : List Byte) :
    words (k + 1) (le32 n ++ r) = (words k r).map (n :: ·) := by
  show (words k r).map (fromLe32 _ _ _ _ :: ·) = _
  rw [fromLe32_le32 h]

/-- Reading back the operand fields of a command. -/
theorem words_flatMap : ∀ {ws : List Nat}, (∀ n ∈ ws, n < 4294967296) → words ws.length (ws.flatMap le32) = some ws
  | [], _ => rfl
  | n :: ws, h => by
    rw [List.length_cons, List.flatMap_cons, words_le32 (h n (by simp)),
      words_flatMap fun m hm => h m (by simp [hm])]
    rfl

end Sys2Proof
end

