-- ==== Sys2Proof/Laws/Map.lean ====
section
/-! SUPPORT. The laws of keyed lists and of caller memory: a read after a write, other keys left alone, and the
canonical form kept by every operation. -/

namespace Sys2Proof.Machine

variable {α : Type}

@[simp] theorem kget_nil (q : Nat) : kget ([] : KMap α) q = none := rfl

@[simp] theorem kget_kput_self (m : KMap α) (q : Nat) (w : α) : kget (kput m q w) q = some w := by
  induction m with
  | nil => simp [kput, kget]
  | cons p r ih =>
    obtain ⟨k, v⟩ := p
    simp only [kput]
    split
    · simp [kget]
    · split
      · simp [kget]
      · simp [kget, *]

theorem kget_kput_ne {m : KMap α} {q p : Nat} (h : p ≠ q) (w : α) : kget (kput m q w) p = kget m p := by
  induction m with
  | nil => simp [kput, kget, Ne.symm h]
  | cons c r ih =>
    obtain ⟨k, v⟩ := c
    simp only [kput]
    split
    · simp [kget, Ne.symm h]
    · split
      · next hk => subst hk; simp [kget, Ne.symm h]
      · simp [kget, ih]

theorem kget_kput (m : KMap α) (q p : Nat) (w : α) :
    kget (kput m q w) p = if p = q then some w else kget m p := by
  split
  · next h => subst h; simp
  · next h => exact kget_kput_ne h w

/-- The later of two writes to one key stands. -/
@[simp] theorem kput_kput (m : KMap α) (q : Nat) (v w : α) : kput (kput m q v) q w = kput m q w := by
  induction m with
  | nil => simp [kput]
  | cons c r ih =>
    obtain ⟨k, u⟩ := c
    simp only [kput]
    split
    · simp [kput]
    · split
      · simp [kput]
      · simp [kput, *]

theorem kget_none_of_kabove {q : Nat} : ∀ {m : KMap α}, kabove q m = true → ∀ p ≤ q, kget m p = none
  | [], _, _, _ => rfl
  | (k, v) :: r, h, p, hp => by
    simp only [kabove, Bool.and_eq_true, decide_eq_true_eq] at h
    simp only [kget, if_neg (show k ≠ p by omega)]
    exact kget_none_of_kabove h.2 p hp

@[simp] theorem kget_kdel_self (m : KMap α) (q : Nat) : kget (kdel m q) q = none := by
  induction m with
  | nil => rfl
  | cons p r ih =>
    obtain ⟨k, v⟩ := p
    simp only [kdel]
    split
    · exact ih
    · next h => simp [kget, h, ih]

theorem kget_kdel_ne {m : KMap α} {q p : Nat} (h : p ≠ q) : kget (kdel m q) p = kget m p := by
  induction m with
  | nil => rfl
  | cons c r ih =>
    obtain ⟨k, v⟩ := c
    simp only [kdel]
    split
    · next hk => subst hk; simp [kget, Ne.symm h, ih]
    · simp [kget, ih]

/-! ### The canonical form -/

theorem kabove_mono {p q : Nat} (h : p ≤ q) : ∀ {m : KMap α}, kabove q m = true → kabove p m = true
  | [], _ => rfl
  | (k, v) :: r, hm => by
    simp only [kabove, Bool.and_eq_true, decide_eq_true_eq] at hm ⊢
    exact ⟨by omega, kabove_mono h hm.2⟩

theorem kabove_kput {p q : Nat} (w : α) (h : p < q) : ∀ {m : KMap α}, kabove p m = true → kabove p (kput m q w) = true
  | [], _ => by simp [kput, kabove, h]
  | (k, v) :: r, hm => by
    simp only [kabove, Bool.and_eq_true, decide_eq_true_eq] at hm
    simp only [kput]
    split
    · simp [kabove, h, hm]
    · split
      · simp [kabove, h, hm]
      · simp [kabove, hm, kabove_kput w h hm.2]

/-- A write keeps the canonical form. -/
theorem ksorted_kput (q : Nat) (w : α) : ∀ {m : KMap α}, ksorted m = true → ksorted (kput m q w) = true
  | [], _ => by simp [kput, ksorted, kabove]
  | (k, v) :: r, hm => by
    have hm' := hm
    simp only [ksorted, Bool.and_eq_true] at hm'
    simp only [kput]
    split
    · next h =>
      simp only [ksorted, Bool.and_eq_true, kabove, decide_eq_true_eq]
      exact ⟨⟨h, kabove_mono (by omega) hm'.1⟩, hm'⟩
    · split
      · next h => subst h; simpa [ksorted] using hm'
      · simp only [ksorted, Bool.and_eq_true]
        exact ⟨kabove_kput w (by omega) hm'.1, ksorted_kput q w hm'.2⟩

theorem kabove_kdel {p : Nat} (q : Nat) : ∀ {m : KMap α}, kabove p m = true → kabove p (kdel m q) = true
  | [], _ => rfl
  | (k, v) :: r, hm => by
    simp only [kabove, Bool.and_eq_true] at hm
    simp only [kdel]
    split
    · exact kabove_kdel q hm.2
    · simp only [kabove, Bool.and_eq_true]
      exact ⟨hm.1, kabove_kdel q hm.2⟩

/-- A removal keeps the canonical form. -/
theorem ksorted_kdel (q : Nat) : ∀ {m : KMap α}, ksorted m = true → ksorted (kdel m q) = true
  | [], _ => rfl
  | (k, v) :: r, hm => by
    simp only [ksorted, Bool.and_eq_true] at hm
    simp only [kdel]
    split
    · exact ksorted_kdel q hm.2
    · simp only [ksorted, Bool.and_eq_true]
      exact ⟨kabove_kdel q hm.1, ksorted_kdel q hm.2⟩

/-- In canonical form, lists that agree at every key are equal. -/
theorem kmap_ext : ∀ {m n : KMap α}, ksorted m = true → ksorted n = true → (∀ q, kget m q = kget n q) → m = n
  | [], [], _, _, _ => rfl
  | [], (k, v) :: r, _, _, h => by simpa [kget] using h k
  | (k, v) :: r, [], _, _, h => by simpa [kget] using h k
  | (k, v) :: r, (l, w) :: t, hm, hn, h => by
    simp only [ksorted, Bool.and_eq_true] at hm hn
    have hkl : k = l := by
      rcases Nat.lt_trichotomy k l with c | c | c
      · have := h k
        simp only [kget, if_true, if_neg (show l ≠ k by omega)] at this
        rw [kget_none_of_kabove hn.1 k (by omega)] at this
        exact absurd this (by simp)
      · exact c
      · have := h l
        simp only [kget, if_true, if_neg (show k ≠ l by omega)] at this
        rw [kget_none_of_kabove hm.1 l (by omega)] at this
        exact absurd this (by simp)
    subst hkl
    have hv : v = w := by simpa [kget] using h k
    subst hv
    have : r = t := by
      refine kmap_ext hm.2 hn.2 fun q => ?_
      by_cases hq : q ≤ k
      · rw [kget_none_of_kabove hm.1 q hq, kget_none_of_kabove hn.1 q hq]
      · have := h q
        simpa only [kget, if_neg (show k ≠ q by omega)] using this
    rw [this]

/-- Writing the value a key already has changes nothing, in canonical form. -/
theorem kput_self {m : KMap α} {q : Nat} {v : α} (hm : ksorted m = true) (h : kget m q = some v) :
    kput m q v = m :=
  kmap_ext (ksorted_kput q v hm) hm fun p => by
    rw [kget_kput]
    split
    · next e => rw [e, h]
    · rfl

/-! ### Caller memory -/

theorem memRead_memWrite_self (m : List Host.Cell) (a : Nat) (v : Byte) : memRead (memWrite m a v) a = .ok v := by
  simp [memRead, memWrite]

theorem memRead_memWrite_ne {m : List Host.Cell} {a p : Nat} (h : p ≠ a) (v : Byte) :
    memRead (memWrite m a v) p = memRead m p := by
  simp [memRead, memWrite, kget_kput_ne h]

/-- A store keeps the canonical form of caller memory. -/
theorem memWrite_wf {m : List Host.Cell} (h : Memory.wf m = true) (a : Nat) (v : Byte) :
    Memory.wf (memWrite m a v) = true :=
  ksorted_kput a v h

theorem memRead_ok_iff {m : List Host.Cell} {a : Nat} {v : Byte} : memRead m a = .ok v ↔ kget m a = some v := by
  unfold memRead
  split <;> simp_all

end Sys2Proof.Machine
end

