-- ==== Sys2Proof/Laws/State.lean ====
section
/-! SUPPORT. What each update of the state, of a bus and of a transaction leaves in each field, by `rfl`: no later proof
unfolds a record update. -/

namespace Sys2Proof.Machine

/-! ### The state, one lemma per field per update -/

@[simp] theorem State.putBus_cfg (s : State) (b : Nat) (x : Bus) : (s.putBus b x).cfg = s.cfg := rfl
@[simp] theorem State.putBus_buses (s : State) (b : Nat) (x : Bus) : (s.putBus b x).buses = kput s.buses b x := rfl
@[simp] theorem State.putBus_handles (s : State) (b : Nat) (x : Bus) : (s.putBus b x).handles = s.handles := rfl
@[simp] theorem State.putBus_nextHandle (s : State) (b : Nat) (x : Bus) : (s.putBus b x).nextHandle = s.nextHandle := rfl
@[simp] theorem State.putBus_threads (s : State) (b : Nat) (x : Bus) : (s.putBus b x).threads = s.threads := rfl
@[simp] theorem State.putBus_mem (s : State) (b : Nat) (x : Bus) : (s.putBus b x).mem = s.mem := rfl
@[simp] theorem State.putBus_now (s : State) (b : Nat) (x : Bus) : (s.putBus b x).now = s.now := rfl
@[simp] theorem State.putBus_xperiphEn (s : State) (b : Nat) (x : Bus) : (s.putBus b x).xperiphEn = s.xperiphEn := rfl
@[simp] theorem State.putBus_sink (s : State) (b : Nat) (x : Bus) : (s.putBus b x).sink = s.sink := rfl
@[simp] theorem State.putBus_cur (s : State) (b : Nat) (x : Bus) : (s.putBus b x).cur = s.cur := rfl
@[simp] theorem State.putBus_intr (s : State) (b : Nat) (x : Bus) : (s.putBus b x).intr = s.intr := rfl
@[simp] theorem State.putBus_pick (s : State) (b : Nat) (x : Bus) : (s.putBus b x).pick = s.pick := rfl
@[simp] theorem State.putBus_dropAck (s : State) (b : Nat) (x : Bus) : (s.putBus b x).dropAck = s.dropAck := rfl
@[simp] theorem State.putBus_sched (s : State) (b : Nat) (x : Bus) : (s.putBus b x).sched = s.sched := rfl

@[simp] theorem State.putThread_cfg (s : State) (t : Nat) (y : Thread) : (s.putThread t y).cfg = s.cfg := rfl
@[simp] theorem State.putThread_buses (s : State) (t : Nat) (y : Thread) : (s.putThread t y).buses = s.buses := rfl
@[simp] theorem State.putThread_handles (s : State) (t : Nat) (y : Thread) : (s.putThread t y).handles = s.handles := rfl
@[simp] theorem State.putThread_nextHandle (s : State) (t : Nat) (y : Thread) : (s.putThread t y).nextHandle = s.nextHandle := rfl
@[simp] theorem State.putThread_threads (s : State) (t : Nat) (y : Thread) : (s.putThread t y).threads = kput s.threads t y := rfl
@[simp] theorem State.putThread_mem (s : State) (t : Nat) (y : Thread) : (s.putThread t y).mem = s.mem := rfl
@[simp] theorem State.putThread_now (s : State) (t : Nat) (y : Thread) : (s.putThread t y).now = s.now := rfl
@[simp] theorem State.putThread_xperiphEn (s : State) (t : Nat) (y : Thread) : (s.putThread t y).xperiphEn = s.xperiphEn := rfl
@[simp] theorem State.putThread_sink (s : State) (t : Nat) (y : Thread) : (s.putThread t y).sink = s.sink := rfl
@[simp] theorem State.putThread_cur (s : State) (t : Nat) (y : Thread) : (s.putThread t y).cur = s.cur := rfl
@[simp] theorem State.putThread_intr (s : State) (t : Nat) (y : Thread) : (s.putThread t y).intr = s.intr := rfl
@[simp] theorem State.putThread_pick (s : State) (t : Nat) (y : Thread) : (s.putThread t y).pick = s.pick := rfl
@[simp] theorem State.putThread_dropAck (s : State) (t : Nat) (y : Thread) : (s.putThread t y).dropAck = s.dropAck := rfl
@[simp] theorem State.putThread_sched (s : State) (t : Nat) (y : Thread) : (s.putThread t y).sched = s.sched := rfl

@[simp] theorem State.putTxn_cfg (s : State) (t : Nat) (x : Txn) : (s.putTxn t x).cfg = s.cfg := rfl
@[simp] theorem State.putTxn_buses (s : State) (t : Nat) (x : Txn) : (s.putTxn t x).buses = s.buses := rfl
@[simp] theorem State.putTxn_handles (s : State) (t : Nat) (x : Txn) : (s.putTxn t x).handles = s.handles := rfl
@[simp] theorem State.putTxn_nextHandle (s : State) (t : Nat) (x : Txn) : (s.putTxn t x).nextHandle = s.nextHandle := rfl
@[simp] theorem State.putTxn_threads (s : State) (t : Nat) (x : Txn) : (s.putTxn t x).threads = kput s.threads t { s.thread t with txn := some x } := rfl
@[simp] theorem State.putTxn_mem (s : State) (t : Nat) (x : Txn) : (s.putTxn t x).mem = s.mem := rfl
@[simp] theorem State.putTxn_now (s : State) (t : Nat) (x : Txn) : (s.putTxn t x).now = s.now := rfl
@[simp] theorem State.putTxn_xperiphEn (s : State) (t : Nat) (x : Txn) : (s.putTxn t x).xperiphEn = s.xperiphEn := rfl
@[simp] theorem State.putTxn_sink (s : State) (t : Nat) (x : Txn) : (s.putTxn t x).sink = s.sink := rfl
@[simp] theorem State.putTxn_cur (s : State) (t : Nat) (x : Txn) : (s.putTxn t x).cur = s.cur := rfl
@[simp] theorem State.putTxn_intr (s : State) (t : Nat) (x : Txn) : (s.putTxn t x).intr = s.intr := rfl
@[simp] theorem State.putTxn_pick (s : State) (t : Nat) (x : Txn) : (s.putTxn t x).pick = s.pick := rfl
@[simp] theorem State.putTxn_dropAck (s : State) (t : Nat) (x : Txn) : (s.putTxn t x).dropAck = s.dropAck := rfl
@[simp] theorem State.putTxn_sched (s : State) (t : Nat) (x : Txn) : (s.putTxn t x).sched = s.sched := rfl

@[simp] theorem State.putRet_cfg (s : State) (t : Nat) (r : Ret) : (s.putRet t r).cfg = s.cfg := rfl
@[simp] theorem State.putRet_buses (s : State) (t : Nat) (r : Ret) : (s.putRet t r).buses = s.buses := rfl
@[simp] theorem State.putRet_handles (s : State) (t : Nat) (r : Ret) : (s.putRet t r).handles = s.handles := rfl
@[simp] theorem State.putRet_nextHandle (s : State) (t : Nat) (r : Ret) : (s.putRet t r).nextHandle = s.nextHandle := rfl
@[simp] theorem State.putRet_threads (s : State) (t : Nat) (r : Ret) : (s.putRet t r).threads = kput s.threads t ⟨none, some r⟩ := rfl
@[simp] theorem State.putRet_mem (s : State) (t : Nat) (r : Ret) : (s.putRet t r).mem = s.mem := rfl
@[simp] theorem State.putRet_now (s : State) (t : Nat) (r : Ret) : (s.putRet t r).now = s.now := rfl
@[simp] theorem State.putRet_xperiphEn (s : State) (t : Nat) (r : Ret) : (s.putRet t r).xperiphEn = s.xperiphEn := rfl
@[simp] theorem State.putRet_sink (s : State) (t : Nat) (r : Ret) : (s.putRet t r).sink = s.sink := rfl
@[simp] theorem State.putRet_cur (s : State) (t : Nat) (r : Ret) : (s.putRet t r).cur = s.cur := rfl
@[simp] theorem State.putRet_intr (s : State) (t : Nat) (r : Ret) : (s.putRet t r).intr = s.intr := rfl
@[simp] theorem State.putRet_pick (s : State) (t : Nat) (r : Ret) : (s.putRet t r).pick = s.pick := rfl
@[simp] theorem State.putRet_dropAck (s : State) (t : Nat) (r : Ret) : (s.putRet t r).dropAck = s.dropAck := rfl
@[simp] theorem State.putRet_sched (s : State) (t : Nat) (r : Ret) : (s.putRet t r).sched = s.sched := rfl

@[simp] theorem State.raise_cfg (s : State) (t : Nat) (k : ErrorKind) : (s.raise t k).cfg = s.cfg := rfl
@[simp] theorem State.raise_buses (s : State) (t : Nat) (k : ErrorKind) : (s.raise t k).buses = s.buses := rfl
@[simp] theorem State.raise_handles (s : State) (t : Nat) (k : ErrorKind) : (s.raise t k).handles = s.handles := rfl
@[simp] theorem State.raise_nextHandle (s : State) (t : Nat) (k : ErrorKind) : (s.raise t k).nextHandle = s.nextHandle := rfl
@[simp] theorem State.raise_threads (s : State) (t : Nat) (k : ErrorKind) : (s.raise t k).threads = kput s.threads t ⟨none, some (.kind k)⟩ := rfl
@[simp] theorem State.raise_mem (s : State) (t : Nat) (k : ErrorKind) : (s.raise t k).mem = s.mem := rfl
@[simp] theorem State.raise_now (s : State) (t : Nat) (k : ErrorKind) : (s.raise t k).now = s.now := rfl
@[simp] theorem State.raise_xperiphEn (s : State) (t : Nat) (k : ErrorKind) : (s.raise t k).xperiphEn = s.xperiphEn := rfl
@[simp] theorem State.raise_sink (s : State) (t : Nat) (k : ErrorKind) : (s.raise t k).sink = s.sink := rfl
@[simp] theorem State.raise_cur (s : State) (t : Nat) (k : ErrorKind) : (s.raise t k).cur = s.cur := rfl
@[simp] theorem State.raise_intr (s : State) (t : Nat) (k : ErrorKind) : (s.raise t k).intr = s.intr := rfl
@[simp] theorem State.raise_pick (s : State) (t : Nat) (k : ErrorKind) : (s.raise t k).pick = s.pick := rfl
@[simp] theorem State.raise_dropAck (s : State) (t : Nat) (k : ErrorKind) : (s.raise t k).dropAck = s.dropAck := rfl
@[simp] theorem State.raise_sched (s : State) (t : Nat) (k : ErrorKind) : (s.raise t k).sched = s.sched := rfl

@[simp] theorem State.putHandle_cfg (s : State) (h : Nat) (d : Handle) : (s.putHandle h d).cfg = s.cfg := rfl
@[simp] theorem State.putHandle_buses (s : State) (h : Nat) (d : Handle) : (s.putHandle h d).buses = s.buses := rfl
@[simp] theorem State.putHandle_handles (s : State) (h : Nat) (d : Handle) : (s.putHandle h d).handles = kput s.handles h d := rfl
@[simp] theorem State.putHandle_nextHandle (s : State) (h : Nat) (d : Handle) : (s.putHandle h d).nextHandle = s.nextHandle := rfl
@[simp] theorem State.putHandle_threads (s : State) (h : Nat) (d : Handle) : (s.putHandle h d).threads = s.threads := rfl
@[simp] theorem State.putHandle_mem (s : State) (h : Nat) (d : Handle) : (s.putHandle h d).mem = s.mem := rfl
@[simp] theorem State.putHandle_now (s : State) (h : Nat) (d : Handle) : (s.putHandle h d).now = s.now := rfl
@[simp] theorem State.putHandle_xperiphEn (s : State) (h : Nat) (d : Handle) : (s.putHandle h d).xperiphEn = s.xperiphEn := rfl
@[simp] theorem State.putHandle_sink (s : State) (h : Nat) (d : Handle) : (s.putHandle h d).sink = s.sink := rfl
@[simp] theorem State.putHandle_cur (s : State) (h : Nat) (d : Handle) : (s.putHandle h d).cur = s.cur := rfl
@[simp] theorem State.putHandle_intr (s : State) (h : Nat) (d : Handle) : (s.putHandle h d).intr = s.intr := rfl
@[simp] theorem State.putHandle_pick (s : State) (h : Nat) (d : Handle) : (s.putHandle h d).pick = s.pick := rfl
@[simp] theorem State.putHandle_dropAck (s : State) (h : Nat) (d : Handle) : (s.putHandle h d).dropAck = s.dropAck := rfl
@[simp] theorem State.putHandle_sched (s : State) (h : Nat) (d : Handle) : (s.putHandle h d).sched = s.sched := rfl

@[simp] theorem State.emit_cfg (s : State) (i : SinkItem) : (s.emit i).cfg = s.cfg := rfl
@[simp] theorem State.emit_buses (s : State) (i : SinkItem) : (s.emit i).buses = s.buses := rfl
@[simp] theorem State.emit_handles (s : State) (i : SinkItem) : (s.emit i).handles = s.handles := rfl
@[simp] theorem State.emit_nextHandle (s : State) (i : SinkItem) : (s.emit i).nextHandle = s.nextHandle := rfl
@[simp] theorem State.emit_threads (s : State) (i : SinkItem) : (s.emit i).threads = s.threads := rfl
@[simp] theorem State.emit_mem (s : State) (i : SinkItem) : (s.emit i).mem = s.mem := rfl
@[simp] theorem State.emit_now (s : State) (i : SinkItem) : (s.emit i).now = s.now := rfl
@[simp] theorem State.emit_xperiphEn (s : State) (i : SinkItem) : (s.emit i).xperiphEn = s.xperiphEn := rfl
@[simp] theorem State.emit_sink (s : State) (i : SinkItem) : (s.emit i).sink = s.sink ++ [i] := rfl
@[simp] theorem State.emit_cur (s : State) (i : SinkItem) : (s.emit i).cur = s.cur := rfl
@[simp] theorem State.emit_intr (s : State) (i : SinkItem) : (s.emit i).intr = s.intr := rfl
@[simp] theorem State.emit_pick (s : State) (i : SinkItem) : (s.emit i).pick = s.pick := rfl
@[simp] theorem State.emit_dropAck (s : State) (i : SinkItem) : (s.emit i).dropAck = s.dropAck := rfl
@[simp] theorem State.emit_sched (s : State) (i : SinkItem) : (s.emit i).sched = s.sched := rfl

@[simp] theorem State.pushEvent_cfg (s : State) (e : Event) : (s.pushEvent e).cfg = s.cfg := rfl
@[simp] theorem State.pushEvent_buses (s : State) (e : Event) : (s.pushEvent e).buses = s.buses := rfl
@[simp] theorem State.pushEvent_handles (s : State) (e : Event) : (s.pushEvent e).handles = s.handles := rfl
@[simp] theorem State.pushEvent_nextHandle (s : State) (e : Event) : (s.pushEvent e).nextHandle = s.nextHandle := rfl
@[simp] theorem State.pushEvent_threads (s : State) (e : Event) : (s.pushEvent e).threads = s.threads := rfl
@[simp] theorem State.pushEvent_mem (s : State) (e : Event) : (s.pushEvent e).mem = s.mem := rfl
@[simp] theorem State.pushEvent_now (s : State) (e : Event) : (s.pushEvent e).now = s.now := rfl
@[simp] theorem State.pushEvent_xperiphEn (s : State) (e : Event) : (s.pushEvent e).xperiphEn = s.xperiphEn := rfl
@[simp] theorem State.pushEvent_sink (s : State) (e : Event) : (s.pushEvent e).sink = s.sink := rfl
@[simp] theorem State.pushEvent_cur (s : State) (e : Event) : (s.pushEvent e).cur = s.cur := rfl
@[simp] theorem State.pushEvent_intr (s : State) (e : Event) : (s.pushEvent e).intr = s.intr := rfl
@[simp] theorem State.pushEvent_pick (s : State) (e : Event) : (s.pushEvent e).pick = s.pick := rfl
@[simp] theorem State.pushEvent_dropAck (s : State) (e : Event) : (s.pushEvent e).dropAck = s.dropAck := rfl
@[simp] theorem State.pushEvent_sched (s : State) (e : Event) : (s.pushEvent e).sched = e :: s.sched := rfl

/-! ### A bus: every field after an update, the ones it leaves first -/

@[simp] theorem Bus.trace_fields (x : Bus) (on : Bool) (snap : Word32) (tag : TraceTag) (param : Int) :
    (x.trace on snap tag param).base = x.base ∧ (x.trace on snap tag param).refs = x.refs
    ∧ (x.trace on snap tag param).lock = x.lock ∧ (x.trace on snap tag param).waiters = x.waiters
    ∧ (x.trace on snap tag param).hs = x.hs ∧ (x.trace on snap tag param).msgv = x.msgv
    ∧ (x.trace on snap tag param).msgc = x.msgc ∧ (x.trace on snap tag param).dcnt = x.dcnt
    ∧ (x.trace on snap tag param).ptr = x.ptr ∧ (x.trace on snap tag param).flags = x.flags
    ∧ (x.trace on snap tag param).status = x.status ∧ (x.trace on snap tag param).sig = x.sig
    ∧ (x.trace on snap tag param).trIsr = x.trIsr ∧ (x.trace on snap tag param).cr1 = x.cr1
    ∧ (x.trace on snap tag param).cr2 = x.cr2 ∧ (x.trace on snap tag param).oar1 = x.oar1
    ∧ (x.trace on snap tag param).oar2 = x.oar2 ∧ (x.trace on snap tag param).dr = x.dr
    ∧ (x.trace on snap tag param).sr1 = x.sr1 ∧ (x.trace on snap tag param).sr2 = x.sr2
    ∧ (x.trace on snap tag param).ccr = x.ccr ∧ (x.trace on snap tag param).trise = x.trise
    ∧ (x.trace on snap tag param).txLog = x.txLog ∧ (x.trace on snap tag param).irqAttached = x.irqAttached
    ∧ (x.trace on snap tag param).irqEnabled = x.irqEnabled ∧ (x.trace on snap tag param).inv = x.inv
    ∧ (x.trace on snap tag param).trLog = (if on then x.trLog ++ [⟨snap, x.trIsr, tag, param⟩] else x.trLog) := by
  refine ⟨?_, ?_, ?_, ?_, ?_, ?_, ?_, ?_, ?_, ?_, ?_, ?_, ?_, ?_, ?_, ?_, ?_, ?_, ?_, ?_, ?_, ?_, ?_, ?_, ?_, ?_, ?_⟩ <;> rfl

@[simp] theorem Bus.countInvocation_fields (x : Bus) (on : Bool) :
    (x.countInvocation on).base = x.base ∧ (x.countInvocation on).refs = x.refs ∧ (x.countInvocation on).lock = x.lock
    ∧ (x.countInvocation on).waiters = x.waiters ∧ (x.countInvocation on).hs = x.hs
    ∧ (x.countInvocation on).msgv = x.msgv ∧ (x.countInvocation on).msgc = x.msgc
    ∧ (x.countInvocation on).dcnt = x.dcnt ∧ (x.countInvocation on).ptr = x.ptr
    ∧ (x.countInvocation on).flags = x.flags ∧ (x.countInvocation on).status = x.status
    ∧ (x.countInvocation on).sig = x.sig ∧ (x.countInvocation on).trLog = x.trLog ∧ (x.countInvocation on).cr1 = x.cr1
    ∧ (x.countInvocation on).cr2 = x.cr2 ∧ (x.countInvocation on).oar1 = x.oar1 ∧ (x.countInvocation on).oar2 = x.oar2
    ∧ (x.countInvocation on).dr = x.dr ∧ (x.countInvocation on).sr1 = x.sr1 ∧ (x.countInvocation on).sr2 = x.sr2
    ∧ (x.countInvocation on).ccr = x.ccr ∧ (x.countInvocation on).trise = x.trise
    ∧ (x.countInvocation on).txLog = x.txLog ∧ (x.countInvocation on).irqAttached = x.irqAttached
    ∧ (x.countInvocation on).irqEnabled = x.irqEnabled ∧ (x.countInvocation on).inv = x.inv
    ∧ (x.countInvocation on).trIsr = (if on then x.trIsr + 1 else x.trIsr) := by
  refine ⟨?_, ?_, ?_, ?_, ?_, ?_, ?_, ?_, ?_, ?_, ?_, ?_, ?_, ?_, ?_, ?_, ?_, ?_, ?_, ?_, ?_, ?_, ?_, ?_, ?_, ?_, ?_⟩ <;> rfl

@[simp] theorem Bus.resetTrace_fields (x : Bus) (on : Bool) :
    (x.resetTrace on).base = x.base ∧ (x.resetTrace on).refs = x.refs ∧ (x.resetTrace on).lock = x.lock
    ∧ (x.resetTrace on).waiters = x.waiters ∧ (x.resetTrace on).hs = x.hs ∧ (x.resetTrace on).msgv = x.msgv
    ∧ (x.resetTrace on).msgc = x.msgc ∧ (x.resetTrace on).dcnt = x.dcnt ∧ (x.resetTrace on).ptr = x.ptr
    ∧ (x.resetTrace on).flags = x.flags ∧ (x.resetTrace on).status = x.status ∧ (x.resetTrace on).sig = x.sig
    ∧ (x.resetTrace on).cr1 = x.cr1 ∧ (x.resetTrace on).cr2 = x.cr2 ∧ (x.resetTrace on).oar1 = x.oar1
    ∧ (x.resetTrace on).oar2 = x.oar2 ∧ (x.resetTrace on).dr = x.dr ∧ (x.resetTrace on).sr1 = x.sr1
    ∧ (x.resetTrace on).sr2 = x.sr2 ∧ (x.resetTrace on).ccr = x.ccr ∧ (x.resetTrace on).trise = x.trise
    ∧ (x.resetTrace on).txLog = x.txLog ∧ (x.resetTrace on).irqAttached = x.irqAttached
    ∧ (x.resetTrace on).irqEnabled = x.irqEnabled ∧ (x.resetTrace on).inv = x.inv
    ∧ (x.resetTrace on).trLog = (if on then [] else x.trLog) ∧ (x.resetTrace on).trIsr = (if on then 0 else x.trIsr) := by
  refine ⟨?_, ?_, ?_, ?_, ?_, ?_, ?_, ?_, ?_, ?_, ?_, ?_, ?_, ?_, ?_, ?_, ?_, ?_, ?_, ?_, ?_, ?_, ?_, ?_, ?_, ?_, ?_⟩ <;> rfl

@[simp] theorem Bus.loadCursor_fields (x : Bus) (m : Message) :
    (x.loadCursor m).base = x.base ∧ (x.loadCursor m).refs = x.refs ∧ (x.loadCursor m).lock = x.lock
    ∧ (x.loadCursor m).waiters = x.waiters ∧ (x.loadCursor m).hs = x.hs ∧ (x.loadCursor m).msgv = x.msgv
    ∧ (x.loadCursor m).msgc = x.msgc ∧ (x.loadCursor m).status = x.status ∧ (x.loadCursor m).sig = x.sig
    ∧ (x.loadCursor m).trLog = x.trLog ∧ (x.loadCursor m).trIsr = x.trIsr ∧ (x.loadCursor m).cr1 = x.cr1
    ∧ (x.loadCursor m).cr2 = x.cr2 ∧ (x.loadCursor m).oar1 = x.oar1 ∧ (x.loadCursor m).oar2 = x.oar2
    ∧ (x.loadCursor m).dr = x.dr ∧ (x.loadCursor m).sr1 = x.sr1 ∧ (x.loadCursor m).sr2 = x.sr2
    ∧ (x.loadCursor m).ccr = x.ccr ∧ (x.loadCursor m).trise = x.trise ∧ (x.loadCursor m).txLog = x.txLog
    ∧ (x.loadCursor m).irqAttached = x.irqAttached ∧ (x.loadCursor m).irqEnabled = x.irqEnabled
    ∧ (x.loadCursor m).inv = x.inv ∧ (x.loadCursor m).dcnt = (m.length : Int) ∧ (x.loadCursor m).ptr = m.buffer
    ∧ (x.loadCursor m).flags = m.flags := by
  refine ⟨?_, ?_, ?_, ?_, ?_, ?_, ?_, ?_, ?_, ?_, ?_, ?_, ?_, ?_, ?_, ?_, ?_, ?_, ?_, ?_, ?_, ?_, ?_, ?_, ?_, ?_, ?_⟩ <;> rfl

@[simp] theorem Bus.advanceCursor_fields (x : Bus) :
    (x.advanceCursor).base = x.base ∧ (x.advanceCursor).refs = x.refs ∧ (x.advanceCursor).lock = x.lock
    ∧ (x.advanceCursor).waiters = x.waiters ∧ (x.advanceCursor).hs = x.hs ∧ (x.advanceCursor).dcnt = x.dcnt
    ∧ (x.advanceCursor).ptr = x.ptr ∧ (x.advanceCursor).flags = x.flags ∧ (x.advanceCursor).status = x.status
    ∧ (x.advanceCursor).sig = x.sig ∧ (x.advanceCursor).trLog = x.trLog ∧ (x.advanceCursor).trIsr = x.trIsr
    ∧ (x.advanceCursor).cr1 = x.cr1 ∧ (x.advanceCursor).cr2 = x.cr2 ∧ (x.advanceCursor).oar1 = x.oar1
    ∧ (x.advanceCursor).oar2 = x.oar2 ∧ (x.advanceCursor).dr = x.dr ∧ (x.advanceCursor).sr1 = x.sr1
    ∧ (x.advanceCursor).sr2 = x.sr2 ∧ (x.advanceCursor).ccr = x.ccr ∧ (x.advanceCursor).trise = x.trise
    ∧ (x.advanceCursor).txLog = x.txLog ∧ (x.advanceCursor).irqAttached = x.irqAttached
    ∧ (x.advanceCursor).irqEnabled = x.irqEnabled ∧ (x.advanceCursor).inv = x.inv
    ∧ (x.advanceCursor).msgv = x.msgv.map MsgPtr.next ∧ (x.advanceCursor).msgc = x.msgc - 1 := by
  refine ⟨?_, ?_, ?_, ?_, ?_, ?_, ?_, ?_, ?_, ?_, ?_, ?_, ?_, ?_, ?_, ?_, ?_, ?_, ?_, ?_, ?_, ?_, ?_, ?_, ?_, ?_, ?_⟩ <;> rfl

@[simp] theorem Bus.preArmAck_fields (x : Bus) :
    (x.preArmAck).base = x.base ∧ (x.preArmAck).refs = x.refs ∧ (x.preArmAck).lock = x.lock
    ∧ (x.preArmAck).waiters = x.waiters ∧ (x.preArmAck).hs = x.hs ∧ (x.preArmAck).msgv = x.msgv
    ∧ (x.preArmAck).msgc = x.msgc ∧ (x.preArmAck).dcnt = x.dcnt ∧ (x.preArmAck).ptr = x.ptr
    ∧ (x.preArmAck).flags = x.flags ∧ (x.preArmAck).status = x.status ∧ (x.preArmAck).sig = x.sig
    ∧ (x.preArmAck).trLog = x.trLog ∧ (x.preArmAck).trIsr = x.trIsr ∧ (x.preArmAck).cr2 = x.cr2
    ∧ (x.preArmAck).oar1 = x.oar1 ∧ (x.preArmAck).oar2 = x.oar2 ∧ (x.preArmAck).dr = x.dr ∧ (x.preArmAck).sr1 = x.sr1
    ∧ (x.preArmAck).sr2 = x.sr2 ∧ (x.preArmAck).ccr = x.ccr ∧ (x.preArmAck).trise = x.trise
    ∧ (x.preArmAck).txLog = x.txLog ∧ (x.preArmAck).irqAttached = x.irqAttached
    ∧ (x.preArmAck).irqEnabled = x.irqEnabled ∧ (x.preArmAck).inv = x.inv
    ∧ (x.preArmAck).cr1 = (if 1 < x.dcnt ∧ isRead x.flags then modifyBits x.cr1 0x0000#16 CR1_ACK else x.cr1) := by
  refine ⟨?_, ?_, ?_, ?_, ?_, ?_, ?_, ?_, ?_, ?_, ?_, ?_, ?_, ?_, ?_, ?_, ?_, ?_, ?_, ?_, ?_, ?_, ?_, ?_, ?_, ?_, ?_⟩ <;> rfl

@[simp] theorem Bus.startMessage_fields (x : Bus) (m : Message) :
    (x.startMessage m).base = x.base ∧ (x.startMessage m).refs = x.refs ∧ (x.startMessage m).lock = x.lock
    ∧ (x.startMessage m).waiters = x.waiters ∧ (x.startMessage m).hs = x.hs ∧ (x.startMessage m).status = x.status
    ∧ (x.startMessage m).sig = x.sig ∧ (x.startMessage m).trLog = x.trLog ∧ (x.startMessage m).trIsr = x.trIsr
    ∧ (x.startMessage m).cr2 = x.cr2 ∧ (x.startMessage m).oar1 = x.oar1 ∧ (x.startMessage m).oar2 = x.oar2
    ∧ (x.startMessage m).dr = x.dr ∧ (x.startMessage m).sr1 = x.sr1 ∧ (x.startMessage m).sr2 = x.sr2
    ∧ (x.startMessage m).ccr = x.ccr ∧ (x.startMessage m).trise = x.trise
    ∧ (x.startMessage m).irqAttached = x.irqAttached ∧ (x.startMessage m).irqEnabled = x.irqEnabled
    ∧ (x.startMessage m).inv = x.inv ∧ (x.startMessage m).msgv = x.msgv.map MsgPtr.next
    ∧ (x.startMessage m).msgc = x.msgc - 1 ∧ (x.startMessage m).dcnt = (m.length : Int)
    ∧ (x.startMessage m).ptr = m.buffer ∧ (x.startMessage m).flags = m.flags
    ∧ (x.startMessage m).cr1 = (if 1 < (m.length : Int) ∧ isRead m.flags then modifyBits x.cr1 0x0000#16 CR1_ACK else x.cr1)
    ∧ (x.startMessage m).txLog = x.txLog ++ [((addressByte m).zeroExtend 16).setWidth 8] := by
  refine ⟨?_, ?_, ?_, ?_, ?_, ?_, ?_, ?_, ?_, ?_, ?_, ?_, ?_, ?_, ?_, ?_, ?_, ?_, ?_, ?_, ?_, ?_, ?_, ?_, ?_, ?_, ?_⟩ <;> rfl

@[simp] theorem Bus.setItbufen_fields (x : Bus) (interrupt on : Bool) :
    (x.setItbufen interrupt on).base = x.base ∧ (x.setItbufen interrupt on).refs = x.refs
    ∧ (x.setItbufen interrupt on).lock = x.lock ∧ (x.setItbufen interrupt on).waiters = x.waiters
    ∧ (x.setItbufen interrupt on).hs = x.hs ∧ (x.setItbufen interrupt on).msgv = x.msgv
    ∧ (x.setItbufen interrupt on).msgc = x.msgc ∧ (x.setItbufen interrupt on).dcnt = x.dcnt
    ∧ (x.setItbufen interrupt on).ptr = x.ptr ∧ (x.setItbufen interrupt on).flags = x.flags
    ∧ (x.setItbufen interrupt on).status = x.status ∧ (x.setItbufen interrupt on).sig = x.sig
    ∧ (x.setItbufen interrupt on).trLog = x.trLog ∧ (x.setItbufen interrupt on).trIsr = x.trIsr
    ∧ (x.setItbufen interrupt on).cr1 = x.cr1 ∧ (x.setItbufen interrupt on).oar1 = x.oar1
    ∧ (x.setItbufen interrupt on).oar2 = x.oar2 ∧ (x.setItbufen interrupt on).dr = x.dr
    ∧ (x.setItbufen interrupt on).sr1 = x.sr1 ∧ (x.setItbufen interrupt on).sr2 = x.sr2
    ∧ (x.setItbufen interrupt on).ccr = x.ccr ∧ (x.setItbufen interrupt on).trise = x.trise
    ∧ (x.setItbufen interrupt on).txLog = x.txLog ∧ (x.setItbufen interrupt on).irqAttached = x.irqAttached
    ∧ (x.setItbufen interrupt on).irqEnabled = x.irqEnabled ∧ (x.setItbufen interrupt on).inv = x.inv
    ∧ (x.setItbufen interrupt on).cr2 = (if interrupt then (if on then modifyBits x.cr2 0x0000#16 CR2_ITBUFEN else modifyBits x.cr2 CR2_ITBUFEN 0x0000#16) else x.cr2) := by
  refine ⟨?_, ?_, ?_, ?_, ?_, ?_, ?_, ?_, ?_, ?_, ?_, ?_, ?_, ?_, ?_, ?_, ?_, ?_, ?_, ?_, ?_, ?_, ?_, ?_, ?_, ?_, ?_⟩ <;> rfl

@[simp] theorem Bus.spliceMessage_fields (x : Bus) (interrupt : Bool) (m : Message) :
    (x.spliceMessage interrupt m).base = x.base ∧ (x.spliceMessage interrupt m).refs = x.refs
    ∧ (x.spliceMessage interrupt m).lock = x.lock ∧ (x.spliceMessage interrupt m).waiters = x.waiters
    ∧ (x.spliceMessage interrupt m).hs = x.hs ∧ (x.spliceMessage interrupt m).status = x.status
    ∧ (x.spliceMessage interrupt m).sig = x.sig ∧ (x.spliceMessage interrupt m).trLog = x.trLog
    ∧ (x.spliceMessage interrupt m).trIsr = x.trIsr ∧ (x.spliceMessage interrupt m).cr1 = x.cr1
    ∧ (x.spliceMessage interrupt m).oar1 = x.oar1 ∧ (x.spliceMessage interrupt m).oar2 = x.oar2
    ∧ (x.spliceMessage interrupt m).dr = x.dr ∧ (x.spliceMessage interrupt m).sr1 = x.sr1
    ∧ (x.spliceMessage interrupt m).sr2 = x.sr2 ∧ (x.spliceMessage interrupt m).ccr = x.ccr
    ∧ (x.spliceMessage interrupt m).trise = x.trise ∧ (x.spliceMessage interrupt m).txLog = x.txLog
    ∧ (x.spliceMessage interrupt m).irqAttached = x.irqAttached
    ∧ (x.spliceMessage interrupt m).irqEnabled = x.irqEnabled ∧ (x.spliceMessage interrupt m).inv = x.inv
    ∧ (x.spliceMessage interrupt m).msgv = x.msgv.map MsgPtr.next ∧ (x.spliceMessage interrupt m).msgc = x.msgc - 1
    ∧ (x.spliceMessage interrupt m).dcnt = (m.length : Int) ∧ (x.spliceMessage interrupt m).ptr = m.buffer
    ∧ (x.spliceMessage interrupt m).flags = m.flags
    ∧ (x.spliceMessage interrupt m).cr2 = (if interrupt then modifyBits x.cr2 0x0000#16 CR2_ITBUFEN else x.cr2) := by
  refine ⟨?_, ?_, ?_, ?_, ?_, ?_, ?_, ?_, ?_, ?_, ?_, ?_, ?_, ?_, ?_, ?_, ?_, ?_, ?_, ?_, ?_, ?_, ?_, ?_, ?_, ?_, ?_⟩ <;> rfl

@[simp] theorem Bus.advancePtr_fields (x : Bus) :
    (x.advancePtr).base = x.base ∧ (x.advancePtr).refs = x.refs ∧ (x.advancePtr).lock = x.lock
    ∧ (x.advancePtr).waiters = x.waiters ∧ (x.advancePtr).hs = x.hs ∧ (x.advancePtr).msgv = x.msgv
    ∧ (x.advancePtr).msgc = x.msgc ∧ (x.advancePtr).dcnt = x.dcnt ∧ (x.advancePtr).flags = x.flags
    ∧ (x.advancePtr).status = x.status ∧ (x.advancePtr).sig = x.sig ∧ (x.advancePtr).trLog = x.trLog
    ∧ (x.advancePtr).trIsr = x.trIsr ∧ (x.advancePtr).cr1 = x.cr1 ∧ (x.advancePtr).cr2 = x.cr2
    ∧ (x.advancePtr).oar1 = x.oar1 ∧ (x.advancePtr).oar2 = x.oar2 ∧ (x.advancePtr).dr = x.dr
    ∧ (x.advancePtr).sr1 = x.sr1 ∧ (x.advancePtr).sr2 = x.sr2 ∧ (x.advancePtr).ccr = x.ccr
    ∧ (x.advancePtr).trise = x.trise ∧ (x.advancePtr).txLog = x.txLog ∧ (x.advancePtr).irqAttached = x.irqAttached
    ∧ (x.advancePtr).irqEnabled = x.irqEnabled ∧ (x.advancePtr).inv = x.inv ∧ (x.advancePtr).ptr = x.ptr.map (· + 1) := by
  refine ⟨?_, ?_, ?_, ?_, ?_, ?_, ?_, ?_, ?_, ?_, ?_, ?_, ?_, ?_, ?_, ?_, ?_, ?_, ?_, ?_, ?_, ?_, ?_, ?_, ?_, ?_, ?_⟩ <;> rfl

@[simp] theorem Bus.wake_fields (x : Bus) (interrupt : Bool) :
    (x.wake interrupt).base = x.base ∧ (x.wake interrupt).refs = x.refs ∧ (x.wake interrupt).lock = x.lock
    ∧ (x.wake interrupt).waiters = x.waiters ∧ (x.wake interrupt).msgv = x.msgv ∧ (x.wake interrupt).msgc = x.msgc
    ∧ (x.wake interrupt).dcnt = x.dcnt ∧ (x.wake interrupt).ptr = x.ptr ∧ (x.wake interrupt).flags = x.flags
    ∧ (x.wake interrupt).status = x.status ∧ (x.wake interrupt).trLog = x.trLog ∧ (x.wake interrupt).trIsr = x.trIsr
    ∧ (x.wake interrupt).cr1 = x.cr1 ∧ (x.wake interrupt).cr2 = x.cr2 ∧ (x.wake interrupt).oar1 = x.oar1
    ∧ (x.wake interrupt).oar2 = x.oar2 ∧ (x.wake interrupt).dr = x.dr ∧ (x.wake interrupt).sr1 = x.sr1
    ∧ (x.wake interrupt).sr2 = x.sr2 ∧ (x.wake interrupt).ccr = x.ccr ∧ (x.wake interrupt).trise = x.trise
    ∧ (x.wake interrupt).txLog = x.txLog ∧ (x.wake interrupt).irqAttached = x.irqAttached
    ∧ (x.wake interrupt).irqEnabled = x.irqEnabled ∧ (x.wake interrupt).inv = x.inv
    ∧ (x.wake interrupt).hs = (if x.hs = .waiting then .done else x.hs)
    ∧ (x.wake interrupt).sig = (if x.hs = .waiting ∧ interrupt then x.sig + 1 else x.sig) := by
  refine ⟨?_, ?_, ?_, ?_, ?_, ?_, ?_, ?_, ?_, ?_, ?_, ?_, ?_, ?_, ?_, ?_, ?_, ?_, ?_, ?_, ?_, ?_, ?_, ?_, ?_, ?_, ?_⟩ <;> rfl

@[simp] theorem Bus.toStage_fields (x : Bus) (st : Stage) :
    (x.toStage st).base = x.base ∧ (x.toStage st).refs = x.refs ∧ (x.toStage st).lock = x.lock
    ∧ (x.toStage st).waiters = x.waiters ∧ (x.toStage st).hs = x.hs ∧ (x.toStage st).msgv = x.msgv
    ∧ (x.toStage st).msgc = x.msgc ∧ (x.toStage st).dcnt = x.dcnt ∧ (x.toStage st).ptr = x.ptr
    ∧ (x.toStage st).flags = x.flags ∧ (x.toStage st).status = x.status ∧ (x.toStage st).sig = x.sig
    ∧ (x.toStage st).trLog = x.trLog ∧ (x.toStage st).trIsr = x.trIsr ∧ (x.toStage st).cr1 = x.cr1
    ∧ (x.toStage st).cr2 = x.cr2 ∧ (x.toStage st).oar1 = x.oar1 ∧ (x.toStage st).oar2 = x.oar2
    ∧ (x.toStage st).dr = x.dr ∧ (x.toStage st).sr1 = x.sr1 ∧ (x.toStage st).sr2 = x.sr2 ∧ (x.toStage st).ccr = x.ccr
    ∧ (x.toStage st).trise = x.trise ∧ (x.toStage st).txLog = x.txLog ∧ (x.toStage st).irqAttached = x.irqAttached
    ∧ (x.toStage st).irqEnabled = x.irqEnabled ∧ (x.toStage st).inv = x.inv.map (fun v => { v with stage := st }) := by
  refine ⟨?_, ?_, ?_, ?_, ?_, ?_, ?_, ?_, ?_, ?_, ?_, ?_, ?_, ?_, ?_, ?_, ?_, ?_, ?_, ?_, ?_, ?_, ?_, ?_, ?_, ?_, ?_⟩ <;> rfl

@[simp] theorem Bus.enterInvocation_fields (x : Bus) (on : Bool) :
    (x.enterInvocation on).base = x.base ∧ (x.enterInvocation on).refs = x.refs ∧ (x.enterInvocation on).lock = x.lock
    ∧ (x.enterInvocation on).waiters = x.waiters ∧ (x.enterInvocation on).hs = x.hs
    ∧ (x.enterInvocation on).msgv = x.msgv ∧ (x.enterInvocation on).msgc = x.msgc
    ∧ (x.enterInvocation on).dcnt = x.dcnt ∧ (x.enterInvocation on).ptr = x.ptr
    ∧ (x.enterInvocation on).flags = x.flags ∧ (x.enterInvocation on).status = x.status
    ∧ (x.enterInvocation on).sig = x.sig ∧ (x.enterInvocation on).trLog = x.trLog ∧ (x.enterInvocation on).cr1 = x.cr1
    ∧ (x.enterInvocation on).cr2 = x.cr2 ∧ (x.enterInvocation on).oar1 = x.oar1 ∧ (x.enterInvocation on).oar2 = x.oar2
    ∧ (x.enterInvocation on).dr = x.dr ∧ (x.enterInvocation on).sr1 = x.sr1 ∧ (x.enterInvocation on).sr2 = x.sr2
    ∧ (x.enterInvocation on).ccr = x.ccr ∧ (x.enterInvocation on).trise = x.trise
    ∧ (x.enterInvocation on).txLog = x.txLog ∧ (x.enterInvocation on).irqAttached = x.irqAttached
    ∧ (x.enterInvocation on).irqEnabled = x.irqEnabled
    ∧ (x.enterInvocation on).trIsr = (if on then x.trIsr + 1 else x.trIsr)
    ∧ (x.enterInvocation on).inv = some ⟨x.readStatus, .a⟩ := by
  refine ⟨?_, ?_, ?_, ?_, ?_, ?_, ?_, ?_, ?_, ?_, ?_, ?_, ?_, ?_, ?_, ?_, ?_, ?_, ?_, ?_, ?_, ?_, ?_, ?_, ?_, ?_, ?_⟩ <;> rfl

@[simp] theorem Bus.leaveInvocation_fields (x : Bus) (v : Invocation) :
    (x.leaveInvocation v).base = x.base ∧ (x.leaveInvocation v).refs = x.refs ∧ (x.leaveInvocation v).lock = x.lock
    ∧ (x.leaveInvocation v).waiters = x.waiters ∧ (x.leaveInvocation v).hs = x.hs
    ∧ (x.leaveInvocation v).msgv = x.msgv ∧ (x.leaveInvocation v).msgc = x.msgc ∧ (x.leaveInvocation v).dcnt = x.dcnt
    ∧ (x.leaveInvocation v).ptr = x.ptr ∧ (x.leaveInvocation v).flags = x.flags ∧ (x.leaveInvocation v).sig = x.sig
    ∧ (x.leaveInvocation v).trLog = x.trLog ∧ (x.leaveInvocation v).trIsr = x.trIsr
    ∧ (x.leaveInvocation v).cr1 = x.cr1 ∧ (x.leaveInvocation v).cr2 = x.cr2 ∧ (x.leaveInvocation v).oar1 = x.oar1
    ∧ (x.leaveInvocation v).oar2 = x.oar2 ∧ (x.leaveInvocation v).dr = x.dr ∧ (x.leaveInvocation v).sr1 = x.sr1
    ∧ (x.leaveInvocation v).sr2 = x.sr2 ∧ (x.leaveInvocation v).ccr = x.ccr ∧ (x.leaveInvocation v).trise = x.trise
    ∧ (x.leaveInvocation v).txLog = x.txLog ∧ (x.leaveInvocation v).irqAttached = x.irqAttached
    ∧ (x.leaveInvocation v).irqEnabled = x.irqEnabled ∧ (x.leaveInvocation v).status = v.snap
    ∧ (x.leaveInvocation v).inv = none := by
  refine ⟨?_, ?_, ?_, ?_, ?_, ?_, ?_, ?_, ?_, ?_, ?_, ?_, ?_, ?_, ?_, ?_, ?_, ?_, ?_, ?_, ?_, ?_, ?_, ?_, ?_, ?_, ?_⟩ <;> rfl

@[simp] theorem Bus.clearAckBeforeLast_fields (x : Bus) :
    (x.clearAckBeforeLast).base = x.base ∧ (x.clearAckBeforeLast).refs = x.refs ∧ (x.clearAckBeforeLast).lock = x.lock
    ∧ (x.clearAckBeforeLast).waiters = x.waiters ∧ (x.clearAckBeforeLast).hs = x.hs
    ∧ (x.clearAckBeforeLast).msgv = x.msgv ∧ (x.clearAckBeforeLast).msgc = x.msgc
    ∧ (x.clearAckBeforeLast).dcnt = x.dcnt ∧ (x.clearAckBeforeLast).ptr = x.ptr
    ∧ (x.clearAckBeforeLast).flags = x.flags ∧ (x.clearAckBeforeLast).status = x.status
    ∧ (x.clearAckBeforeLast).sig = x.sig ∧ (x.clearAckBeforeLast).trLog = x.trLog
    ∧ (x.clearAckBeforeLast).trIsr = x.trIsr ∧ (x.clearAckBeforeLast).cr2 = x.cr2
    ∧ (x.clearAckBeforeLast).oar1 = x.oar1 ∧ (x.clearAckBeforeLast).oar2 = x.oar2 ∧ (x.clearAckBeforeLast).dr = x.dr
    ∧ (x.clearAckBeforeLast).sr1 = x.sr1 ∧ (x.clearAckBeforeLast).sr2 = x.sr2 ∧ (x.clearAckBeforeLast).ccr = x.ccr
    ∧ (x.clearAckBeforeLast).trise = x.trise ∧ (x.clearAckBeforeLast).txLog = x.txLog
    ∧ (x.clearAckBeforeLast).irqAttached = x.irqAttached ∧ (x.clearAckBeforeLast).irqEnabled = x.irqEnabled
    ∧ (x.clearAckBeforeLast).inv = x.inv
    ∧ (x.clearAckBeforeLast).cr1 = (if x.dcnt = 1 then modifyBits x.cr1 CR1_ACK 0x0000#16 else x.cr1) := by
  refine ⟨?_, ?_, ?_, ?_, ?_, ?_, ?_, ?_, ?_, ?_, ?_, ?_, ?_, ?_, ?_, ?_, ?_, ?_, ?_, ?_, ?_, ?_, ?_, ?_, ?_, ?_, ?_⟩ <;> rfl

@[simp] theorem Bus.lineClear_fields (x : Bus) (m : Half) :
    (x.lineClear m).base = x.base ∧ (x.lineClear m).refs = x.refs ∧ (x.lineClear m).lock = x.lock
    ∧ (x.lineClear m).waiters = x.waiters ∧ (x.lineClear m).hs = x.hs ∧ (x.lineClear m).msgv = x.msgv
    ∧ (x.lineClear m).msgc = x.msgc ∧ (x.lineClear m).dcnt = x.dcnt ∧ (x.lineClear m).ptr = x.ptr
    ∧ (x.lineClear m).flags = x.flags ∧ (x.lineClear m).status = x.status ∧ (x.lineClear m).sig = x.sig
    ∧ (x.lineClear m).trLog = x.trLog ∧ (x.lineClear m).trIsr = x.trIsr ∧ (x.lineClear m).cr2 = x.cr2
    ∧ (x.lineClear m).oar1 = x.oar1 ∧ (x.lineClear m).oar2 = x.oar2 ∧ (x.lineClear m).dr = x.dr
    ∧ (x.lineClear m).sr1 = x.sr1 ∧ (x.lineClear m).sr2 = x.sr2 ∧ (x.lineClear m).ccr = x.ccr
    ∧ (x.lineClear m).trise = x.trise ∧ (x.lineClear m).txLog = x.txLog ∧ (x.lineClear m).irqAttached = x.irqAttached
    ∧ (x.lineClear m).irqEnabled = x.irqEnabled ∧ (x.lineClear m).inv = x.inv
    ∧ (x.lineClear m).cr1 = x.cr1 &&& ~~~(m &&& clearableCr1 x.cr1) := by
  refine ⟨?_, ?_, ?_, ?_, ?_, ?_, ?_, ?_, ?_, ?_, ?_, ?_, ?_, ?_, ?_, ?_, ?_, ?_, ?_, ?_, ?_, ?_, ?_, ?_, ?_, ?_, ?_⟩ <;> rfl

@[simp] theorem Bus.acquire_fields (x : Bus) (t : Nat) :
    (x.acquire t).base = x.base ∧ (x.acquire t).refs = x.refs ∧ (x.acquire t).hs = x.hs ∧ (x.acquire t).msgv = x.msgv
    ∧ (x.acquire t).msgc = x.msgc ∧ (x.acquire t).dcnt = x.dcnt ∧ (x.acquire t).ptr = x.ptr
    ∧ (x.acquire t).flags = x.flags ∧ (x.acquire t).status = x.status ∧ (x.acquire t).sig = x.sig
    ∧ (x.acquire t).trLog = x.trLog ∧ (x.acquire t).trIsr = x.trIsr ∧ (x.acquire t).cr1 = x.cr1
    ∧ (x.acquire t).cr2 = x.cr2 ∧ (x.acquire t).oar1 = x.oar1 ∧ (x.acquire t).oar2 = x.oar2 ∧ (x.acquire t).dr = x.dr
    ∧ (x.acquire t).sr1 = x.sr1 ∧ (x.acquire t).sr2 = x.sr2 ∧ (x.acquire t).ccr = x.ccr
    ∧ (x.acquire t).trise = x.trise ∧ (x.acquire t).txLog = x.txLog ∧ (x.acquire t).irqAttached = x.irqAttached
    ∧ (x.acquire t).irqEnabled = x.irqEnabled ∧ (x.acquire t).inv = x.inv
    ∧ (x.acquire t).lock = (if x.lock = .free then .held t else x.lock)
    ∧ (x.acquire t).waiters = (if x.lock = .free ∨ x.lock = .held t ∨ t ∈ x.waiters then x.waiters else x.waiters ++ [t]) := by
  refine ⟨?_, ?_, ?_, ?_, ?_, ?_, ?_, ?_, ?_, ?_, ?_, ?_, ?_, ?_, ?_, ?_, ?_, ?_, ?_, ?_, ?_, ?_, ?_, ?_, ?_, ?_, ?_⟩ <;> rfl

@[simp] theorem Bus.release_fields (x : Bus) (pick : Nat) :
    (x.release pick).base = x.base ∧ (x.release pick).refs = x.refs ∧ (x.release pick).hs = x.hs
    ∧ (x.release pick).msgv = x.msgv ∧ (x.release pick).msgc = x.msgc ∧ (x.release pick).dcnt = x.dcnt
    ∧ (x.release pick).ptr = x.ptr ∧ (x.release pick).flags = x.flags ∧ (x.release pick).status = x.status
    ∧ (x.release pick).sig = x.sig ∧ (x.release pick).trLog = x.trLog ∧ (x.release pick).trIsr = x.trIsr
    ∧ (x.release pick).cr1 = x.cr1 ∧ (x.release pick).cr2 = x.cr2 ∧ (x.release pick).oar1 = x.oar1
    ∧ (x.release pick).oar2 = x.oar2 ∧ (x.release pick).dr = x.dr ∧ (x.release pick).sr1 = x.sr1
    ∧ (x.release pick).sr2 = x.sr2 ∧ (x.release pick).ccr = x.ccr ∧ (x.release pick).trise = x.trise
    ∧ (x.release pick).txLog = x.txLog ∧ (x.release pick).irqAttached = x.irqAttached
    ∧ (x.release pick).irqEnabled = x.irqEnabled ∧ (x.release pick).inv = x.inv
    ∧ (x.release pick).lock = (match chooseWaiter x.waiters pick with | none => .free | some u => .held u)
    ∧ (x.release pick).waiters = (match chooseWaiter x.waiters pick with | none => x.waiters | some u => x.waiters.filter (· ≠ u)) := by
  refine ⟨?_, ?_, ?_, ?_, ?_, ?_, ?_, ?_, ?_, ?_, ?_, ?_, ?_, ?_, ?_, ?_, ?_, ?_, ?_, ?_, ?_, ?_, ?_, ?_, ?_, ?_, ?_⟩ <;> rfl

@[simp] theorem Bus.install_fields (x : Bus) (p : MsgPtr) (n : Int) :
    (x.install p n).base = x.base ∧ (x.install p n).refs = x.refs ∧ (x.install p n).lock = x.lock
    ∧ (x.install p n).waiters = x.waiters ∧ (x.install p n).hs = x.hs ∧ (x.install p n).status = x.status
    ∧ (x.install p n).sig = x.sig ∧ (x.install p n).trLog = x.trLog ∧ (x.install p n).trIsr = x.trIsr
    ∧ (x.install p n).cr1 = x.cr1 ∧ (x.install p n).cr2 = x.cr2 ∧ (x.install p n).oar1 = x.oar1
    ∧ (x.install p n).oar2 = x.oar2 ∧ (x.install p n).dr = x.dr ∧ (x.install p n).sr1 = x.sr1
    ∧ (x.install p n).sr2 = x.sr2 ∧ (x.install p n).ccr = x.ccr ∧ (x.install p n).trise = x.trise
    ∧ (x.install p n).txLog = x.txLog ∧ (x.install p n).irqAttached = x.irqAttached
    ∧ (x.install p n).irqEnabled = x.irqEnabled ∧ (x.install p n).inv = x.inv ∧ (x.install p n).msgv = some p
    ∧ (x.install p n).msgc = n ∧ (x.install p n).dcnt = 0 ∧ (x.install p n).ptr = none
    ∧ (x.install p n).flags = 0x0000#16 := by
  refine ⟨?_, ?_, ?_, ?_, ?_, ?_, ?_, ?_, ?_, ?_, ?_, ?_, ?_, ?_, ?_, ?_, ?_, ?_, ?_, ?_, ?_, ?_, ?_, ?_, ?_, ?_, ?_⟩ <;> rfl

@[simp] theorem Bus.armAndMark_fields (x : Bus) :
    (x.armAndMark).base = x.base ∧ (x.armAndMark).refs = x.refs ∧ (x.armAndMark).lock = x.lock
    ∧ (x.armAndMark).waiters = x.waiters ∧ (x.armAndMark).msgv = x.msgv ∧ (x.armAndMark).msgc = x.msgc
    ∧ (x.armAndMark).dcnt = x.dcnt ∧ (x.armAndMark).ptr = x.ptr ∧ (x.armAndMark).flags = x.flags
    ∧ (x.armAndMark).status = x.status ∧ (x.armAndMark).sig = x.sig ∧ (x.armAndMark).trLog = x.trLog
    ∧ (x.armAndMark).trIsr = x.trIsr ∧ (x.armAndMark).cr1 = x.cr1 ∧ (x.armAndMark).oar1 = x.oar1
    ∧ (x.armAndMark).oar2 = x.oar2 ∧ (x.armAndMark).dr = x.dr ∧ (x.armAndMark).sr1 = x.sr1
    ∧ (x.armAndMark).sr2 = x.sr2 ∧ (x.armAndMark).ccr = x.ccr ∧ (x.armAndMark).trise = x.trise
    ∧ (x.armAndMark).txLog = x.txLog ∧ (x.armAndMark).irqAttached = x.irqAttached
    ∧ (x.armAndMark).irqEnabled = x.irqEnabled ∧ (x.armAndMark).inv = x.inv ∧ (x.armAndMark).hs = .waiting
    ∧ (x.armAndMark).cr2 = modifyBits x.cr2 0x0000#16 (CR2_ITERREN ||| CR2_ITEVTEN) := by
  refine ⟨?_, ?_, ?_, ?_, ?_, ?_, ?_, ?_, ?_, ?_, ?_, ?_, ?_, ?_, ?_, ?_, ?_, ?_, ?_, ?_, ?_, ?_, ?_, ?_, ?_, ?_, ?_⟩ <;> rfl

@[simp] theorem Bus.disarm_fields (x : Bus) (interrupt : Bool) :
    (x.disarm interrupt).base = x.base ∧ (x.disarm interrupt).refs = x.refs ∧ (x.disarm interrupt).lock = x.lock
    ∧ (x.disarm interrupt).waiters = x.waiters ∧ (x.disarm interrupt).msgv = x.msgv
    ∧ (x.disarm interrupt).msgc = x.msgc ∧ (x.disarm interrupt).dcnt = x.dcnt ∧ (x.disarm interrupt).ptr = x.ptr
    ∧ (x.disarm interrupt).flags = x.flags ∧ (x.disarm interrupt).status = x.status ∧ (x.disarm interrupt).sig = x.sig
    ∧ (x.disarm interrupt).trLog = x.trLog ∧ (x.disarm interrupt).trIsr = x.trIsr ∧ (x.disarm interrupt).cr1 = x.cr1
    ∧ (x.disarm interrupt).oar1 = x.oar1 ∧ (x.disarm interrupt).oar2 = x.oar2 ∧ (x.disarm interrupt).dr = x.dr
    ∧ (x.disarm interrupt).sr1 = x.sr1 ∧ (x.disarm interrupt).sr2 = x.sr2 ∧ (x.disarm interrupt).ccr = x.ccr
    ∧ (x.disarm interrupt).trise = x.trise ∧ (x.disarm interrupt).txLog = x.txLog
    ∧ (x.disarm interrupt).irqAttached = x.irqAttached ∧ (x.disarm interrupt).irqEnabled = x.irqEnabled
    ∧ (x.disarm interrupt).inv = x.inv ∧ (x.disarm interrupt).hs = .idle
    ∧ (x.disarm interrupt).cr2 = (if interrupt then modifyBits x.cr2 (CR2_ITERREN ||| CR2_ITEVTEN ||| CR2_ITBUFEN) 0x0000#16 else x.cr2) := by
  refine ⟨?_, ?_, ?_, ?_, ?_, ?_, ?_, ?_, ?_, ?_, ?_, ?_, ?_, ?_, ?_, ?_, ?_, ?_, ?_, ?_, ?_, ?_, ?_, ?_, ?_, ?_, ?_⟩ <;> rfl

@[simp] theorem Bus.resetRegs_fields (x : Bus) :
    (x.resetRegs).base = x.base ∧ (x.resetRegs).refs = x.refs ∧ (x.resetRegs).lock = x.lock
    ∧ (x.resetRegs).waiters = x.waiters ∧ (x.resetRegs).hs = x.hs ∧ (x.resetRegs).msgv = x.msgv
    ∧ (x.resetRegs).msgc = x.msgc ∧ (x.resetRegs).dcnt = x.dcnt ∧ (x.resetRegs).ptr = x.ptr
    ∧ (x.resetRegs).flags = x.flags ∧ (x.resetRegs).status = x.status ∧ (x.resetRegs).sig = x.sig
    ∧ (x.resetRegs).trLog = x.trLog ∧ (x.resetRegs).trIsr = x.trIsr ∧ (x.resetRegs).txLog = x.txLog
    ∧ (x.resetRegs).irqAttached = x.irqAttached ∧ (x.resetRegs).irqEnabled = x.irqEnabled ∧ (x.resetRegs).inv = x.inv
    ∧ (x.resetRegs).cr1 = 0x0000#16 ∧ (x.resetRegs).cr2 = 0x0000#16 ∧ (x.resetRegs).oar1 = 0x0000#16
    ∧ (x.resetRegs).oar2 = 0x0000#16 ∧ (x.resetRegs).dr = 0x00#8 ∧ (x.resetRegs).sr1 = 0x0000#16
    ∧ (x.resetRegs).sr2 = 0x0000#16 ∧ (x.resetRegs).ccr = 0x0000#16 ∧ (x.resetRegs).trise = 0x0002#16 := by
  refine ⟨?_, ?_, ?_, ?_, ?_, ?_, ?_, ?_, ?_, ?_, ?_, ?_, ?_, ?_, ?_, ?_, ?_, ?_, ?_, ?_, ?_, ?_, ?_, ?_, ?_, ?_, ?_⟩ <;> rfl

@[simp] theorem Bus.powerUp_fields (x : Bus) (interrupt : Bool) :
    (x.powerUp interrupt).base = x.base ∧ (x.powerUp interrupt).refs = x.refs ∧ (x.powerUp interrupt).lock = x.lock
    ∧ (x.powerUp interrupt).waiters = x.waiters ∧ (x.powerUp interrupt).hs = x.hs
    ∧ (x.powerUp interrupt).msgv = x.msgv ∧ (x.powerUp interrupt).msgc = x.msgc ∧ (x.powerUp interrupt).dcnt = x.dcnt
    ∧ (x.powerUp interrupt).ptr = x.ptr ∧ (x.powerUp interrupt).flags = x.flags
    ∧ (x.powerUp interrupt).status = x.status ∧ (x.powerUp interrupt).sig = x.sig
    ∧ (x.powerUp interrupt).trLog = x.trLog ∧ (x.powerUp interrupt).trIsr = x.trIsr
    ∧ (x.powerUp interrupt).txLog = x.txLog ∧ (x.powerUp interrupt).inv = x.inv
    ∧ (x.powerUp interrupt).cr1 = modifyBits 0x0000#16 0x0000#16 CR1_PE ∧ (x.powerUp interrupt).cr2 = 0x0000#16
    ∧ (x.powerUp interrupt).oar1 = 0x0000#16 ∧ (x.powerUp interrupt).oar2 = 0x0000#16
    ∧ (x.powerUp interrupt).dr = 0x00#8 ∧ (x.powerUp interrupt).sr1 = 0x0000#16
    ∧ (x.powerUp interrupt).sr2 = 0x0000#16 ∧ (x.powerUp interrupt).ccr = 0x0000#16
    ∧ (x.powerUp interrupt).trise = 0x0002#16 ∧ (x.powerUp interrupt).irqAttached = (interrupt || x.irqAttached)
    ∧ (x.powerUp interrupt).irqEnabled = (interrupt || x.irqEnabled) := by
  refine ⟨?_, ?_, ?_, ?_, ?_, ?_, ?_, ?_, ?_, ?_, ?_, ?_, ?_, ?_, ?_, ?_, ?_, ?_, ?_, ?_, ?_, ?_, ?_, ?_, ?_, ?_, ?_⟩ <;> rfl

@[simp] theorem Bus.powerDown_fields (x : Bus) (interrupt : Bool) :
    (x.powerDown interrupt).base = x.base ∧ (x.powerDown interrupt).refs = x.refs
    ∧ (x.powerDown interrupt).lock = x.lock ∧ (x.powerDown interrupt).waiters = x.waiters
    ∧ (x.powerDown interrupt).hs = x.hs ∧ (x.powerDown interrupt).msgv = x.msgv
    ∧ (x.powerDown interrupt).msgc = x.msgc ∧ (x.powerDown interrupt).dcnt = x.dcnt
    ∧ (x.powerDown interrupt).ptr = x.ptr ∧ (x.powerDown interrupt).flags = x.flags
    ∧ (x.powerDown interrupt).status = x.status ∧ (x.powerDown interrupt).sig = x.sig
    ∧ (x.powerDown interrupt).trLog = x.trLog ∧ (x.powerDown interrupt).trIsr = x.trIsr
    ∧ (x.powerDown interrupt).txLog = x.txLog ∧ (x.powerDown interrupt).inv = x.inv
    ∧ (x.powerDown interrupt).cr1 = 0x0000#16 ∧ (x.powerDown interrupt).cr2 = 0x0000#16
    ∧ (x.powerDown interrupt).oar1 = 0x0000#16 ∧ (x.powerDown interrupt).oar2 = 0x0000#16
    ∧ (x.powerDown interrupt).dr = 0x00#8 ∧ (x.powerDown interrupt).sr1 = 0x0000#16
    ∧ (x.powerDown interrupt).sr2 = 0x0000#16 ∧ (x.powerDown interrupt).ccr = 0x0000#16
    ∧ (x.powerDown interrupt).trise = 0x0002#16 ∧ (x.powerDown interrupt).irqAttached = (!interrupt && x.irqAttached)
    ∧ (x.powerDown interrupt).irqEnabled = (!interrupt && x.irqEnabled) := by
  refine ⟨?_, ?_, ?_, ?_, ?_, ?_, ?_, ?_, ?_, ?_, ?_, ?_, ?_, ?_, ?_, ?_, ?_, ?_, ?_, ?_, ?_, ?_, ?_, ?_, ?_, ?_, ?_⟩ <;> rfl

end Sys2Proof.Machine
end

