-- ==== Sys2Proof/Laws/Ops.lean ====
section
/-! SUPPORT. What each shared operation can do, said once: in its context it continues, and if it answers next it was in
its context. The provers cite these instead of unfolding. -/

namespace Sys2Proof.Machine

/-! ### Accessors -/

@[simp] theorem State.bus?_putBus_self (s : State) (b : Nat) (x : Bus) : (s.putBus b x).bus? b = some x := by
  simp [State.bus?]

theorem State.bus?_putBus_ne {s : State} {b c : Nat} (h : c ≠ b) (x : Bus) : (s.putBus b x).bus? c = s.bus? c := by
  simp [State.bus?, kget_kput_ne h]

theorem State.bus?_putBus (s : State) (b c : Nat) (x : Bus) :
    (s.putBus b x).bus? c = if c = b then some x else s.bus? c := by
  simp [State.bus?, kget_kput]

@[simp] theorem State.bus?_putThread (s : State) (t b : Nat) (y : Thread) : (s.putThread t y).bus? b = s.bus? b := rfl
@[simp] theorem State.bus?_putTxn (s : State) (t b : Nat) (x : Txn) : (s.putTxn t x).bus? b = s.bus? b := rfl
@[simp] theorem State.bus?_putRet (s : State) (t b : Nat) (r : Ret) : (s.putRet t r).bus? b = s.bus? b := rfl
@[simp] theorem State.bus?_raise (s : State) (t b : Nat) (k : ErrorKind) : (s.raise t k).bus? b = s.bus? b := rfl
@[simp] theorem State.bus?_putHandle (s : State) (h b : Nat) (d : Handle) : (s.putHandle h d).bus? b = s.bus? b := rfl
@[simp] theorem State.bus?_emit (s : State) (i : SinkItem) (b : Nat) : (s.emit i).bus? b = s.bus? b := rfl

@[simp] theorem State.thread_putBus (s : State) (b t : Nat) (x : Bus) : (s.putBus b x).thread t = s.thread t := rfl
@[simp] theorem State.thread_putHandle (s : State) (h t : Nat) (d : Handle) :
    (s.putHandle h d).thread t = s.thread t := rfl
@[simp] theorem State.thread_emit (s : State) (i : SinkItem) (t : Nat) : (s.emit i).thread t = s.thread t := rfl

@[simp] theorem State.thread_putThread_self (s : State) (t : Nat) (y : Thread) : (s.putThread t y).thread t = y := by
  simp [State.thread]

theorem State.thread_putThread (s : State) (t u : Nat) (y : Thread) :
    (s.putThread t y).thread u = if u = t then y else s.thread u := by
  simp only [State.thread, State.putThread_threads, kget_kput]
  split <;> rfl

theorem State.thread_putTxn (s : State) (t u : Nat) (x : Txn) :
    (s.putTxn t x).thread u = if u = t then { s.thread t with txn := some x } else s.thread u :=
  State.thread_putThread s t u _

@[simp] theorem State.thread_putTxn_self (s : State) (t : Nat) (x : Txn) :
    ((s.putTxn t x).thread t).txn = some x := by
  simp [State.thread_putTxn]

theorem State.thread_putRet (s : State) (t u : Nat) (r : Ret) :
    (s.putRet t r).thread u = if u = t then ⟨none, some r⟩ else s.thread u :=
  State.thread_putThread s t u _

theorem State.thread_raise (s : State) (t u : Nat) (k : ErrorKind) :
    (s.raise t k).thread u = if u = t then ⟨none, some (.kind k)⟩ else s.thread u :=
  State.thread_putThread s t u _

@[simp] theorem State.putBus_putBus (s : State) (b : Nat) (x y : Bus) : (s.putBus b x).putBus b y = s.putBus b y := by
  simp [State.putBus]

/-- Of two updates of one thread's transaction the later counts. -/
@[simp] theorem State.putTxn_putTxn (s : State) (t : Nat) (x y : Txn) :
    (s.putTxn t x).putTxn t y = s.putTxn t y := by
  have h : (s.putTxn t x).thread t = { s.thread t with txn := some x } := by simp [State.thread_putTxn]
  rw [State.putTxn, h]
  simp [State.putTxn, State.putThread]

/-- A thread moved on in its transaction is still inside it. -/
theorem InTxn.putTxn {s : State} {t : Nat} {x z : Txn} {y : Bus} (h : InTxn s t x y) (e : z.bus = x.bus) :
    InTxn (s.putTxn t z) t z y :=
  ⟨h.1, by simp, by rw [State.bus?_putTxn, e]; exact h.2.2⟩

theorem State.bus?_modifyBus (s : State) (b c : Nat) (f : Bus → Bus) :
    (s.modifyBus b f).bus? c = if c = b then (s.bus? b).map f else s.bus? c := by
  unfold State.modifyBus
  cases h : s.bus? b with
  | none =>
    by_cases e : c = b
    · simp [e, h]
    · simp [e]
  | some x =>
    simp only [State.bus?_putBus, Option.map_some]

/-! ### Contexts -/

theorem withCaller_of_ready {s : State} {t : Nat} (h : CallerReady s t) (k : Nat → Out) : withCaller s k = k t := by
  simp [withCaller, h.1, h.2]

theorem withCaller_next {s s' : State} {k : Nat → Out} (h : withCaller s k = .next s') :
    ∃ t, CallerReady s t ∧ k t = .next s' := by
  unfold withCaller at h
  split at h
  · cases h
  · next t ht =>
    split at h
    · cases h
    · next hn => exact ⟨t, ⟨ht, hn⟩, h⟩

theorem withHandle_of_live {s : State} {n : Nat} {d : Handle} (h : s.handle? n = some d) (k : Nat → Handle → Out) :
    withHandle s (some n) k = k n d := by
  simp [withHandle, h]

theorem withHandle_next {s s' : State} {h : Option Nat} {k : Nat → Handle → Out}
    (e : withHandle s h k = .next s') : ∃ n d, h = some n ∧ s.handle? n = some d ∧ k n d = .next s' := by
  unfold withHandle at e
  split at e
  · cases e
  · next n =>
    split at e
    · cases e
    · next d hd => exact ⟨n, d, rfl, hd, e⟩

theorem withTxn_of_inTxn {s : State} {t : Nat} {x : Txn} {y : Bus} (h : InTxn s t x y) (k : Nat → Txn → Bus → Out) :
    withTxn s k = k t x y := by
  simp [withTxn, h.1, h.2.1, h.2.2]

theorem withTxn_next {s s' : State} {k : Nat → Txn → Bus → Out} (e : withTxn s k = .next s') :
    ∃ t x y, InTxn s t x y ∧ k t x y = .next s' := by
  unfold withTxn at e
  split at e
  · cases e
  · next t ht =>
    split at e
    · cases e
    · next x hx =>
      split at e
      · cases e
      · next y hy => exact ⟨t, x, y, ⟨ht, hx, hy⟩, e⟩

theorem withInvocation_of_in {s : State} {b : Nat} {x : Bus} {v : Invocation} (h : InInvocation s b x v)
    (k : Nat → Bus → Invocation → Out) : withInvocation s k = k b x v := by
  simp [withInvocation, h.1, h.2.1, h.2.2]

theorem withInvocation_next {s s' : State} {k : Nat → Bus → Invocation → Out} (e : withInvocation s k = .next s') :
    ∃ b x v, InInvocation s b x v ∧ k b x v = .next s' := by
  unfold withInvocation at e
  split at e
  · cases e
  · next b hb =>
    split at e
    · cases e
    · next x hx =>
      split at e
      · cases e
      · next v hv => exact ⟨b, x, v, ⟨hb, hx, hv⟩, e⟩

theorem orFault_next {α : Type} {r : Except Fault α} {k : α → Out} {s' : State} (e : orFault r k = .next s') :
    ∃ a, r = .ok a ∧ k a = .next s' := by
  cases r with
  | error f => cases e
  | ok a => exact ⟨a, rfl, e⟩

theorem andThen_next {o : Out} {k : State → Out} {s' : State} (e : andThen o k = .next s') :
    ∃ u, o = .next u ∧ k u = .next s' := by
  cases o with
  | next u => exact ⟨u, rfl, e⟩
  | fault f => cases e
  | refused r => cases e

theorem enterExecute_next {s s' : State} {t h : Nat} {d : Handle} {p : MsgPtr} {n : Int} {v : Option Fault}
    (e : enterExecute s t h d p n v = .next s') : v = none ∧ s' = s.putTxn t (Txn.start h d p n) := by
  unfold enterExecute at e
  split at e
  · cases e
  · cases e; exact ⟨rfl, rfl⟩

/-! ### The lock -/

theorem Bus.acquire_free {x : Bus} {t : Nat} (h : x.lock = .free) : (x.acquire t).lock = .held t := by
  simp [h]

theorem Bus.acquire_held {x : Bus} {t u : Nat} (h : x.lock = .held u) : (x.acquire t).lock = .held u := by
  simp [h]

/-- A thread that comes to a held lock leaves the blocked threads as they are or joins them at the end. -/
theorem Bus.acquire_of_held {x : Bus} {t u : Nat} (h : x.lock = .held u) :
    ∃ ws, (ws = x.waiters ∨ ws = x.waiters ++ [t]) ∧ x.acquire t = { x with waiters := ws } := by
  refine ⟨(x.acquire t).waiters, ?_, by simp [Bus.acquire, h]⟩
  simp only [Bus.acquire]
  split
  · exact .inl rfl
  · exact .inr rfl

theorem chooseWaiter_mem {ws : List Nat} {pick u : Nat} (h : chooseWaiter ws pick = some u) : u ∈ ws :=
  List.mem_of_getElem? h

/-! ### CLK -/

/-- CLK touches CR1, OAR1, CCR and TRISE only (R140). -/
@[simp] theorem Bus.programClock_keeps (x : Bus) (tm : Timing) (drop : Bool) :
    (x.programClock tm drop).base = x.base ∧ (x.programClock tm drop).refs = x.refs
    ∧ (x.programClock tm drop).lock = x.lock ∧ (x.programClock tm drop).waiters = x.waiters
    ∧ (x.programClock tm drop).hs = x.hs ∧ (x.programClock tm drop).msgv = x.msgv
    ∧ (x.programClock tm drop).msgc = x.msgc ∧ (x.programClock tm drop).dcnt = x.dcnt
    ∧ (x.programClock tm drop).ptr = x.ptr ∧ (x.programClock tm drop).flags = x.flags
    ∧ (x.programClock tm drop).status = x.status ∧ (x.programClock tm drop).sig = x.sig
    ∧ (x.programClock tm drop).trLog = x.trLog ∧ (x.programClock tm drop).trIsr = x.trIsr
    ∧ (x.programClock tm drop).cr2 = x.cr2 ∧ (x.programClock tm drop).oar2 = x.oar2
    ∧ (x.programClock tm drop).dr = x.dr ∧ (x.programClock tm drop).sr1 = x.sr1 ∧ (x.programClock tm drop).sr2 = x.sr2
    ∧ (x.programClock tm drop).txLog = x.txLog ∧ (x.programClock tm drop).irqAttached = x.irqAttached
    ∧ (x.programClock tm drop).irqEnabled = x.irqEnabled ∧ (x.programClock tm drop).inv = x.inv := by
  refine ⟨?_, ?_, ?_, ?_, ?_, ?_, ?_, ?_, ?_, ?_, ?_, ?_, ?_, ?_, ?_, ?_, ?_, ?_, ?_, ?_, ?_, ?_, ?_⟩ <;> rfl

@[simp] theorem Bus.programClock_oar1 (x : Bus) (tm : Timing) (drop : Bool) :
    (x.programClock tm drop).oar1 = OAR1_ONE := rfl

@[simp] theorem Bus.programClock_ccr (x : Bus) (tm : Timing) (drop : Bool) :
    (x.programClock tm drop).ccr = tm.ccr := rfl

@[simp] theorem Bus.programClock_trise (x : Bus) (tm : Timing) (drop : Bool) :
    (x.programClock tm drop).trise = BitVec.ofNat 16 tm.trise := rfl

@[simp] theorem Bus.programClock_cr1 (x : Bus) (tm : Timing) (drop : Bool) :
    (x.programClock tm drop).cr1 = clkCr1 x.cr1 drop := rfl

/-- CLK leaves PE as it was (R148). -/
theorem clkCr1_pe (v : Half) (drop : Bool) : clkCr1 v drop &&& CR1_PE = v &&& CR1_PE := by
  ext i hi
  cases drop <;> (simp [clkCr1, modifyBits, CR1_PE, CR1_ACK]; interval_cases i <;> simp)

theorem runClk_next {mode : Nat → Nat → Timing} {s s' : State} (e : runClk mode s = .next s') :
    ∃ t x y d, InTxn s t x y ∧ s.handle? x.handle = some d ∧
      inContract d.frequency (mode s.cfg.pclk d.frequency) = true ∧
      s' = s.putBus x.bus (y.programClock (mode s.cfg.pclk d.frequency) s.dropAck) := by
  obtain ⟨t, x, y, h, e⟩ := withTxn_next e
  split at e
  · cases e
  · next d hd =>
    dsimp only at e
    split at e
    · next hc => cases e; exact ⟨t, x, y, d, h, hd, hc, rfl⟩
    · cases e

/-- What step 7 does to the machine, in any mode. -/
theorem clk_next {s s' : State} (e : clk s = .next s') :
    ∃ t x y d mode, InTxn s t x y ∧ s.handle? x.handle = some d ∧
      (mode = Timing.std ∨ mode = Timing.fast2 ∨ mode = Timing.fast16_9) ∧
      inContract d.frequency (mode s.cfg.pclk d.frequency) = true ∧
      s' = s.putBus x.bus (y.programClock (mode s.cfg.pclk d.frequency) s.dropAck) := by
  obtain ⟨t, x, y, _, e⟩ := withTxn_next e
  split at e
  · cases e
  · split at e
    · obtain ⟨t, x, y, d, h, hd, hc, hs⟩ := runClk_next e
      exact ⟨t, x, y, d, _, h, hd, .inl rfl, hc, hs⟩
    · obtain ⟨t, x, y, d, h, hd, hc, hs⟩ := runClk_next e
      exact ⟨t, x, y, d, _, h, hd, .inr (.inl rfl), hc, hs⟩
    · obtain ⟨t, x, y, d, h, hd, hc, hs⟩ := runClk_next e
      exact ⟨t, x, y, d, _, h, hd, .inr (.inr rfl), hc, hs⟩
    · cases e

/-! ### Memory -/

/-- Storing several bytes keeps the canonical form of caller memory. -/
theorem writeBytes_wf : ∀ (bs : List Byte) {m : List Host.Cell} (a : Nat), Memory.wf m = true →
    Memory.wf (writeBytes m a bs) = true
  | [], _, _, h => h
  | v :: r, _, a, h => writeBytes_wf r (a + 1) (memWrite_wf h a v)

/-- Bytes that are all there are read in rising order. -/
theorem readBytes_ok {m : List Host.Cell} {n : Nat} : ∀ {a : Nat} {f : Nat → Byte},
    (∀ k, k < n → memRead m (a + k) = .ok (f k)) → readBytes m a n = .ok ((List.range n).map f) := by
  induction n with
  | zero => intro _ _ _; rfl
  | succ n ih =>
    intro a f h
    have first : memRead m a = .ok (f 0) := h 0 (by omega)
    have rest : readBytes m (a + 1) n = .ok ((List.range n).map fun k => f (k + 1)) :=
      ih fun k hk => by rw [Nat.add_assoc, Nat.add_comm 1]; exact h _ (by omega)
    simp [readBytes, first, rest, List.range_succ_eq_map]

theorem memRead_error {m : List Host.Cell} {a : Nat} {f : Fault} (h : memRead m a = .error f) : f = .unwrittenState := by
  unfold memRead at h
  split at h
  · cases h
  · cases h; rfl

/-- Where one of the bytes has not been written, the read stops (R52). -/
theorem readBytes_unwritten {m : List Host.Cell} {n : Nat} : ∀ {a k : Nat}, k < n →
    memRead m (a + k) = .error .unwrittenState → readBytes m a n = .error .unwrittenState := by
  induction n with
  | zero => intro _ _ hk; omega
  | succ n ih =>
    intro a k hk h
    unfold readBytes
    cases e : memRead m a with
    | error f => exact congrArg _ (memRead_error e)
    | ok v =>
      cases k with
      | zero => rw [Nat.add_zero, e] at h; cases h
      | succ k =>
        rw [ih (k := k) (by omega) (by rw [Nat.add_assoc, Nat.add_comm 1]; exact h)]

/-- A descriptor fetched through a misaligned pointer is a fault. -/
theorem fetchMessage_misaligned {m : List Host.Cell} {a : Nat} (h : a % 4 ≠ 0) :
    fetchMessage m (.mem a) = .error .badDescriptor := by
  simp [fetchMessage, h]

end Sys2Proof.Machine
end

