-- ==== Sys2Proof/Laws/Step.lean ====
section
/-! SUPPORT. What one step of the machine can be, said once: nothing, a move of the environment, a command turned away,
the taking of an interrupt, or one operation, with all that its dispatch tells about the state. An invariant of the
machine follows from `step_keeps` by one small case for each. -/

namespace Sys2Proof.Machine

/-- What the dispatch of an operation tells about the state it runs in. -/
inductive Dispatched (i : Instr) (s : State) : Prop where
  /-- a host command of the running thread, which is inside no command -/
  | command (t : Nat) (bs : List Byte) (ready : CallerReady s t) (dec : decode (.command bs) = .ok i)
  /-- an ORCH step of the running thread; no invocation of its bus is in progress -/
  | step (t : Nat) (x : Txn) (y : Bus) (txn : InTxn s t x y) (idle : y.inv = none) (num : stepOf x.step = some i)
  /-- an action of the invocation in progress on the running agent's bus; in `MODE = Polled` the agent is a thread inside
  the polled loop -/
  | action (b : Nat) (x : Bus) (v : Invocation) (k : DispatchKey) (inv : InInvocation s b x v)
      (key : actionKey s x v = .ok k) (dec : decodeAction k = i)
      (polled : s.interruptMode = false → ∃ t w, InTxn s t w x ∧ w.bus = b ∧ w.pollsNow = true)

theorem stepOf_le {n : Nat} {i : Instr} (h : stepOf n = some i) : 1 ≤ n ∧ n ≤ 17 := by
  unfold stepOf at h
  split at h <;> first | (cases h; done) | omega

/-- The step number survives its byte and the table's mask. -/
theorem decodeStep_ofNat {n : Nat} (h : n ≤ 17) {i : Instr} :
    decodeStep (BitVec.ofNat 8 n) = .ok i ↔ stepOf n = some i := by
  have : ((BitVec.ofNat 8 n) &&& 0x1F#8).toNat = n := by
    interval_cases n <;> rfl
  unfold decodeStep
  rw [this]
  cases stepOf n <;> simp

/-! ### Forwards: what a plan is, given the place of the agent -/

theorem planIssue_of {s : State} {t : Nat} {bs : List Byte} {i : Instr} (hn : (s.thread t).txn = none)
    (hd : decode (.command bs) = .ok i) : planIssue s t bs = .run i { s with cur := .thread t } := by
  simp only [planIssue, hn, hd]

theorem planRun_step {s : State} {t : Nat} {x : Txn} {y : Bus} {i : Instr} (hx : (s.thread t).txn = some x)
    (hy : s.bus? x.bus = some y) (hi : y.inv = none) (hl : x.step ≤ 17)
    (hd : decode (.step (BitVec.ofNat 8 x.step)) = .ok i) : planRun s t = .run i s := by
  simp only [planRun, hx, hy, hi, hl, if_true, runWord, hd]

theorem planRun_action {s : State} {t t0 : Nat} {x : Txn} {y : Bus} {v : Invocation} {k : DispatchKey} {i : Instr}
    (hm : s.cfg.mode = .polled) (hx : (s.thread t).txn = some x) (hy : s.bus? x.bus = some y) (hi : y.inv = some v)
    (h9 : x.step = 9) (hw : x.wait = .polling t0) (hk : actionKey s y v = .ok k)
    (hd : decode (.action k) = .ok i) : planRun s t = .run i s := by
  simp only [planRun, hx, hy, hi]
  rw [if_pos (by simp [State.interruptMode, hm, Txn.pollsNow, hw, h9])]
  simp only [planAction, hk, runWord, hd]

theorem planIrq_action {s : State} {b : Nat} {x : Bus} {v : Invocation} {k : DispatchKey} {i : Instr}
    (hm : s.cfg.mode = .interrupt) (hx : s.bus? b = some x) (hi : x.inv = some v) (hk : actionKey s x v = .ok k)
    (hd : decode (.action k) = .ok i) : planIrq s b = .run i s := by
  simp only [planIrq, hx, hi]
  rw [if_pos (by simp [State.interruptMode, hm])]
  simp only [planAction, hk, runWord, hd]

theorem planIrq_take {s : State} {b : Nat} {x : Bus} (hm : s.cfg.mode = .interrupt) (hx : s.bus? b = some x)
    (hi : x.inv = none) :
    planIrq s b =
      if x.irqEnabledNow then .done (s.putBus b (x.enterInvocation s.cfg.traceEn)) else .done s := by
  simp only [planIrq, hx, hi]
  rw [if_pos (by simp [State.interruptMode, hm])]

/-! ### Backwards: what a plan tells -/

/-- A plan of an action is the action, or a stop. -/
theorem planAction_run {s u : State} {x : Bus} {v : Invocation} {i : Instr} (h : planAction s x v = .run i u) :
    u = s ∧ ∃ k, actionKey s x v = .ok k ∧ decodeAction k = i := by
  unfold planAction at h
  split at h
  · cases h
  · next k hk =>
    simp only [runWord, decode] at h
    cases h
    exact ⟨rfl, k, hk, rfl⟩

theorem planAction_done {s u : State} {x : Bus} {v : Invocation} (h : planAction s x v = .done u) : False := by
  unfold planAction at h
  split at h
  · cases h
  · simp only [runWord, decode] at h
    cases h

theorem Txn.pollsNow_iff {x : Txn} : x.pollsNow = true ↔ x.step = 9 ∧ ∃ t0, x.wait = .polling t0 := by
  unfold Txn.pollsNow
  split <;> simp_all

/-- What a plan that is no operation leaves. -/
theorem plan_done {e : Event} {s u : State} (h : plan e s = .done u) :
    (∃ m, e = .env m ∧ u = s.applyEnv m)
    ∨ (∃ t bs, e = .issue t bs ∧ (u = s ∨ ((s.thread t).txn = none ∧ u = s.raise t .invalidArgument)))
    ∨ (∃ t a p d, e = .run t a p d ∧ u = { s with cur := .thread t, intr := a, pick := p, dropAck := d })
    ∨ (∃ b, e = .irq b ∧ (u = { s with cur := .isr b } ∨
        ∃ x, s.interruptMode = true ∧ s.bus? b = some x ∧ x.irqEnabledNow = true ∧
          u = { s with cur := .isr b }.putBus b (x.enterInvocation s.cfg.traceEn))) := by
  cases e with
  | env m => simp only [plan] at h; cases h; exact .inl ⟨m, rfl, rfl⟩
  | issue t bs =>
    refine .inr (.inl ⟨t, bs, rfl, ?_⟩)
    simp only [plan, planIssue] at h
    split at h
    · cases h; exact .inl rfl
    · next hn =>
      split at h
      · cases h
      · cases h; exact .inr ⟨hn, rfl⟩
      · cases h
  | run t a p d =>
    refine .inr (.inr (.inl ⟨t, a, p, d, rfl, ?_⟩))
    simp only [plan, planRun] at h
    split at h
    · cases h; rfl
    · split at h
      · cases h
      · split at h
        · split at h
          · unfold runWord at h; split at h <;> cases h
          · cases h
        · split at h
          · exact (planAction_done h).elim
          · cases h; rfl
  | irq b =>
    refine .inr (.inr (.inr ⟨b, rfl, ?_⟩))
    simp only [plan, planIrq] at h
    split at h
    · next hm =>
      split at h
      · cases h; exact .inl rfl
      · next x hx =>
        split at h
        · exact (planAction_done h).elim
        · split at h
          · next he => cases h; exact .inr ⟨x, hm, hx, he, rfl⟩
          · cases h; exact .inl rfl
    · cases h; exact .inl rfl

/-- The state an operation runs in, beside the input it was given. -/
theorem plan_run {e : Event} {s u : State} {i : Instr} (h : plan e s = .run i u) :
    Dispatched i u ∧
      ((∃ t bs, e = .issue t bs ∧ u = { s with cur := .thread t })
      ∨ (∃ t a p d, e = .run t a p d ∧ u = { s with cur := .thread t, intr := a, pick := p, dropAck := d })
      ∨ (∃ b, e = .irq b ∧ u = { s with cur := .isr b })) := by
  cases e with
  | env m => simp only [plan] at h; cases h
  | issue t bs =>
    simp only [plan, planIssue] at h
    split at h
    · cases h
    · next hn =>
      split at h
      · next i hd => cases h; exact ⟨.command t bs ⟨rfl, hn⟩ hd, .inl ⟨t, bs, rfl, rfl⟩⟩
      · cases h
      · cases h
  | run t a p d =>
    simp only [plan, planRun] at h
    split at h
    · cases h
    · next x hx =>
      split at h
      · cases h
      · next y hy =>
        split at h
        · next hi =>
          split at h
          · next hl =>
            unfold runWord at h
            split at h
            · next hd =>
              cases h
              exact ⟨.step t x y ⟨rfl, hx, hy⟩ hi ((decodeStep_ofNat hl).1 hd), .inr (.inl ⟨t, a, p, d, rfl, rfl⟩)⟩
            · cases h
          · cases h
        · next v hv =>
          split at h
          · next hp =>
            obtain ⟨rfl, k, hk, hd⟩ := planAction_run h
            simp only [Bool.and_eq_true] at hp
            refine ⟨.action x.bus y v k ⟨?_, hy, hv⟩ hk hd fun _ => ⟨t, x, ⟨rfl, hx, hy⟩, rfl, hp.2⟩,
              .inr (.inl ⟨t, a, p, d, rfl, rfl⟩)⟩
            simp only [State.curBus]
            exact congrArg (Option.map (·.bus)) hx
          · cases h
  | irq b =>
    simp only [plan, planIrq] at h
    split at h
    · next hm =>
      split at h
      · cases h
      · next x hx =>
        split at h
        · next v hv =>
          obtain ⟨rfl, k, hk, hd⟩ := planAction_run h
          refine ⟨.action b x v k ⟨rfl, hx, hv⟩ hk hd fun hf => ?_, .inr (.inr ⟨b, rfl, rfl⟩)⟩
          rw [hm] at hf; cases hf
        · split at h <;> cases h
    · cases h

/-- What a step that answers next was. -/
theorem step_next {s s' : State} (h : step s = .next s') :
    (s.sched = [] ∧ s' = s) ∨ ∃ e r, s.sched = e :: r ∧
      (plan e { s with sched := r } = .done s' ∨
        ∃ i u, plan e { s with sched := r } = .run i u ∧ exec i u = .next s') := by
  unfold step at h
  split at h
  · next hs => cases h; exact .inl ⟨hs, rfl⟩
  · next e r hs =>
    refine .inr ⟨e, r, hs, ?_⟩
    generalize plan e { s with sched := r } = p at h ⊢
    cases p with
    | done u => cases h; exact .inl rfl
    | run i u => exact .inr ⟨i, u, rfl, h⟩
    | stop f => cases h
    | refuse r => cases h

/-- The whole of a step, by what it does to the state. `P` is kept if it does not look at the inputs, and if the
environment, the turning away of a command, the taking of the interrupt and every operation keep it. -/
theorem step_keeps {P : State → Prop}
    (inputs : ∀ (s : State) c a p d q, P s →
      P { s with cur := c, intr := a, pick := p, dropAck := d, sched := q })
    (env : ∀ (s : State) m, P s → P (s.applyEnv m))
    (turned : ∀ (s : State) t, P s → (s.thread t).txn = none → P (s.raise t .invalidArgument))
    (taken : ∀ (s : State) b x, P s → s.interruptMode = true → s.bus? b = some x → x.irqEnabledNow = true →
      P (s.putBus b (x.enterInvocation s.cfg.traceEn)))
    (op : ∀ i s s', P s → Dispatched i s → exec i s = .next s' → P s')
    {s s' : State} (hP : P s) (h : step s = .next s') : P s' := by
  rcases step_next h with ⟨_, rfl⟩ | ⟨e, r, _, h | ⟨i, u, h, hx⟩⟩
  · exact hP
  · have h0 : P { s with sched := r } := inputs s s.cur s.intr s.pick s.dropAck r hP
    rcases plan_done h with ⟨m, _, rfl⟩ | ⟨t, bs, _, rfl | ⟨hn, rfl⟩⟩ | ⟨t, a, p, d, _, rfl⟩ | ⟨b, _, rfl | ⟨x, hm, hx, he, rfl⟩⟩
    · exact env _ m h0
    · exact h0
    · exact turned _ t h0 hn
    · exact inputs s (.thread t) a p d r hP
    · exact inputs s (.isr b) s.intr s.pick s.dropAck r hP
    · exact taken { s with cur := .isr b, sched := r } b x (inputs s (.isr b) s.intr s.pick s.dropAck r hP) hm hx he
  · obtain ⟨hd, ⟨t, bs, _, rfl⟩ | ⟨t, a, p, d, _, rfl⟩ | ⟨b, _, rfl⟩⟩ := plan_run h
    · exact op i _ s' (inputs s (.thread t) s.intr s.pick s.dropAck r hP) hd hx
    · exact op i _ s' (inputs s (.thread t) a p d r hP) hd hx
    · exact op i _ s' (inputs s (.isr b) s.intr s.pick s.dropAck r hP) hd hx

end Sys2Proof.Machine
end

