-- ==== Sys2Proof/Laws/Exec.lean ====
section
/-! SUPPORT. Each meaning inverted: if it answers next, in which context it ran and which state it left. -/

namespace Sys2Proof.Machine

variable {s s' : State}

/-! ### Messages -/

theorem takeUp_next {m : Message} (e : takeUp m s = .next s') :
    ∃ b x v, InInvocation s b x v ∧ s' = s.putBus b (x.startMessage m) := by
  obtain ⟨b, x, v, h, e⟩ := withInvocation_next e
  cases e
  exact ⟨b, x, v, h, rfl⟩

theorem takeUpNoRestart_next {m : Message} (e : takeUpNoRestart m s = .next s') :
    ∃ b x v, InInvocation s b x v ∧
      (v.stage = .sub ∧ s' = s.putBus b (x.spliceMessage s.interruptMode m)
        ∨ v.stage ≠ .sub ∧ s' = s.putBus b (x.startMessage m)) := by
  obtain ⟨b, x, v, h, e⟩ := withInvocation_next e
  split at e <;> cases e
  · next hs => exact ⟨b, x, v, h, .inl ⟨hs, rfl⟩⟩
  · next hs => exact ⟨b, x, v, h, .inr ⟨hs, rfl⟩⟩

/-! ### TSM -/

theorem execEvStart_next (e : execEvStart s = .next s') :
    ∃ b x v p m, InInvocation s b x v ∧ x.msgv = some p ∧ 1 ≤ x.msgc ∧ fetchMessage s.mem p = .ok m ∧
      s' = s.putBus b (((x.trace s.cfg.traceEn v.snap .start x.msgc).startMessage m).toStage .b) := by
  obtain ⟨b, x, v, h, e⟩ := withInvocation_next e
  split at e
  · cases e
  · next p hp =>
    split at e
    · cases e
    · next hc =>
      obtain ⟨m, hm, e⟩ := orFault_next e
      cases e
      exact ⟨b, x, v, p, m, h, hp, by omega, hm, rfl⟩

theorem execEvTx_next (e : execEvTx s = .next s') :
    ∃ b x v, InInvocation s b x v ∧
      ((x.dcnt - 1 < 0 ∧ s' = s.putBus b ({ x with dcnt := x.dcnt - 1 }.toStage .b)) ∨
        ∃ p w, 0 ≤ x.dcnt - 1 ∧ x.ptr = some p ∧ memRead s.mem p = .ok w ∧
          s' = s.putBus b ((((({ x with dcnt := x.dcnt - 1 }.trace s.cfg.traceEn v.snap .phase 0).trace s.cfg.traceEn
            v.snap .send (w.toNat : Int)).writeReg .dr (w.zeroExtend 16)).advancePtr).toStage .b)) := by
  obtain ⟨b, x, v, h, e⟩ := withInvocation_next e
  dsimp only at e
  split at e
  · next hd => cases e; exact ⟨b, x, v, h, .inl ⟨hd, rfl⟩⟩
  · next hd =>
    split at e
    · cases e
    · next p hp =>
      obtain ⟨w, hw, e⟩ := orFault_next e
      cases e
      exact ⟨b, x, v, h, .inr ⟨p, w, by omega, hp, hw, rfl⟩⟩

theorem execEvRxAddr_next (e : execEvRxAddr s = .next s') :
    ∃ b x v, InInvocation s b x v ∧
      ((s.interruptMode = true ∧
          s' = s.putBus b (((x.trace s.cfg.traceEn v.snap .itbufen 0).setItbufen true true).toStage .b)) ∨
        (s.interruptMode = false ∧ s' = s.putBus b (x.toStage .b))) := by
  obtain ⟨b, x, v, h, e⟩ := withInvocation_next e
  split at e
  · next hm => cases e; exact ⟨b, x, v, h, .inl ⟨hm, rfl⟩⟩
  · next hm => cases e; exact ⟨b, x, v, h, .inr ⟨by simpa using hm, rfl⟩⟩

theorem execEvRx_next (e : execEvRx s = .next s') :
    ∃ b x v, InInvocation s b x v ∧
      ((x.dcnt - 1 < 0 ∧ s' = s.putBus b ({ x with dcnt := x.dcnt - 1 }.toStage .b)) ∨
        ∃ p, 0 ≤ x.dcnt - 1 ∧ x.ptr = some p ∧
          s' = { s with mem := memWrite s.mem p ((x.dr.zeroExtend 16).setWidth 8) }.putBus b
            (((({ x with dcnt := x.dcnt - 1 }.trace s.cfg.traceEn v.snap .recv (x.dcnt - 1)).advancePtr)
              |>.clearAckBeforeLast).toStage .b)) := by
  obtain ⟨b, x, v, h, e⟩ := withInvocation_next e
  dsimp only at e
  split at e
  · next hd => cases e; exact ⟨b, x, v, h, .inl ⟨hd, rfl⟩⟩
  · next hd =>
    split at e
    · cases e
    · next p hp =>
      cases e
      exact ⟨b, x, v, h, .inr ⟨p, by omega, hp, rfl⟩⟩

theorem execPostBufEn_next (e : execPostBufEn s = .next s') :
    ∃ b x v, InInvocation s b x v ∧ s' = s.putBus b ((x.setItbufen s.interruptMode true).toStage .c) := by
  obtain ⟨b, x, v, h, e⟩ := withInvocation_next e
  cases e; exact ⟨b, x, v, h, rfl⟩

theorem execPostBufDis_next (e : execPostBufDis s = .next s') :
    ∃ b x v, InInvocation s b x v ∧ s' = s.putBus b ((x.setItbufen s.interruptMode false).toStage .c) := by
  obtain ⟨b, x, v, h, e⟩ := withInvocation_next e
  cases e; exact ⟨b, x, v, h, rfl⟩

theorem execPostBtf_next (e : execPostBtf s = .next s') :
    ∃ b x v, InInvocation s b x v ∧ s' = s.putBus b (x.toStage .sub) := by
  obtain ⟨b, x, v, h, e⟩ := withInvocation_next e
  cases e; exact ⟨b, x, v, h, rfl⟩

theorem execPostBtfSplice_next (e : execPostBtfSplice s = .next s') :
    ∃ b x v m, InInvocation s b x v ∧ fetchCursor (fetchMessage s.mem) x.msgv = .ok m ∧
      s' = s.putBus b ((x.spliceMessage s.interruptMode m).toStage .d) := by
  obtain ⟨b, x, v, h, e⟩ := withInvocation_next e
  obtain ⟨m, hm, e⟩ := orFault_next e
  cases e; exact ⟨b, x, v, m, h, hm, rfl⟩

theorem execPostBtfRestart_next (e : execPostBtfRestart s = .next s') :
    ∃ b x v, InInvocation s b x v ∧
      s' = s.putBus b
        (((x.trace s.cfg.traceEn v.snap .restart x.msgc).modifyReg .cr1 0x0000#16 CR1_START).toStage .d) := by
  obtain ⟨b, x, v, h, e⟩ := withInvocation_next e
  cases e; exact ⟨b, x, v, h, rfl⟩

theorem execPostBtfStop_next (e : execPostBtfStop s = .next s') :
    ∃ b x v, InInvocation s b x v ∧
      s' = s.putBus b ({ ((x.trace s.cfg.traceEn v.snap .stop 0).modifyReg .cr1 0x0000#16 CR1_STOP).wake
        s.interruptMode with msgv := none }.toStage .d) := by
  obtain ⟨b, x, v, h, e⟩ := withInvocation_next e
  cases e; exact ⟨b, x, v, h, rfl⟩

theorem execPostBtfNone_next (e : execPostBtfNone s = .next s') :
    ∃ b x v, InInvocation s b x v ∧ s' = s.putBus b (x.toStage .d) := by
  obtain ⟨b, x, v, h, e⟩ := withInvocation_next e
  cases e; exact ⟨b, x, v, h, rfl⟩

theorem execPostErr_next (e : execPostErr s = .next s') :
    ∃ b x v, InInvocation s b x v ∧
      s' = s.putBus b (((x.writeReg .sr1 0x0000#16).wake s.interruptMode).toStage .fin) := by
  obtain ⟨b, x, v, h, e⟩ := withInvocation_next e
  cases e; exact ⟨b, x, v, h, rfl⟩

theorem execPostLatch_next (e : execPostLatch s = .next s') :
    ∃ b x v, InInvocation s b x v ∧ s' = s.putBus b (x.leaveInvocation v) := by
  obtain ⟨b, x, v, h, e⟩ := withInvocation_next e
  cases e; exact ⟨b, x, v, h, rfl⟩

/-! ### ORCH -/

theorem execOrchLock_next (e : execOrchLock s = .next s') :
    ∃ t x y, InTxn s t x y ∧
      ((y.acquire t).lock = .held t ∧ s' = (s.putBus x.bus (y.acquire t)).putTxn t (s.past x 1)
        ∨ (y.acquire t).lock ≠ .held t ∧ s' = s.putBus x.bus (y.acquire t)) := by
  obtain ⟨t, x, y, h, e⟩ := withTxn_next e
  dsimp only at e
  split at e <;> cases e
  · next hl => exact ⟨t, x, y, h, .inl ⟨hl, rfl⟩⟩
  · next hl => exact ⟨t, x, y, h, .inr ⟨hl, rfl⟩⟩

theorem execOrchXperiphOff_next (e : execOrchXperiphOff s = .next s') :
    ∃ t x y, InTxn s t x y ∧
      (s.cfg.pinConflict x.bus = true ∧
          s' = { s with xperiphEn := false }.putTxn t { s.past x 2 with savedX := s.xperiphEn }
        ∨ s.cfg.pinConflict x.bus = false ∧ s' = s.putTxn t (s.past x 2)) := by
  obtain ⟨t, x, y, h, e⟩ := withTxn_next e
  split at e <;> cases e
  · next hc => exact ⟨t, x, y, h, .inl ⟨hc, rfl⟩⟩
  · next hc => exact ⟨t, x, y, h, .inr ⟨by simpa using hc, rfl⟩⟩

theorem waitStop_next {t : Nat} {x : Txn} {y : Bus} {n : Nat} (e : waitStop s t x y n = .next s') :
    s' = s.putTxn t { s.past x n with stopT0 := none }
    ∨ s' = (s.emit (.stopPending x.bus)).putTxn t { s.past x n with stopT0 := none }
    ∨ s' = s.putTxn t { x with stopT0 := some (x.stopT0.getD s.now) } := by
  unfold waitStop at e
  dsimp only at e
  split at e
  · split at e <;> cases e
    · exact .inr (.inl rfl)
    · exact .inr (.inr rfl)
  · cases e; exact .inl rfl

theorem execOrchWaitStop_next (e : execOrchWaitStop s = .next s') :
    ∃ t x y, InTxn s t x y ∧ waitStop s t x y 3 = .next s' := withTxn_next e

theorem execOrchClrErr_next (e : execOrchClrErr s = .next s') :
    ∃ t x y, InTxn s t x y ∧ s' = (s.putBus x.bus (y.writeReg .sr1 0x0000#16)).putTxn t (s.past x 4) := by
  obtain ⟨t, x, y, h, e⟩ := withTxn_next e
  cases e; exact ⟨t, x, y, h, rfl⟩

theorem execOrchClrReq_next (e : execOrchClrReq s = .next s') :
    ∃ t x y, InTxn s t x y ∧
      s' = (s.putBus x.bus (y.modifyReg .cr1 (CR1_START ||| CR1_STOP ||| CR1_PEC) 0x0000#16)).putTxn t (s.past x 5) := by
  obtain ⟨t, x, y, h, e⟩ := withTxn_next e
  cases e; exact ⟨t, x, y, h, rfl⟩

theorem execOrchInstall_next (e : execOrchInstall s = .next s') :
    ∃ t x y, InTxn s t x y ∧
      s' = (s.putBus x.bus ((y.install x.messages x.count).resetTrace s.cfg.traceEn)).putTxn t (s.past x 6) := by
  obtain ⟨t, x, y, h, e⟩ := withTxn_next e
  cases e; exact ⟨t, x, y, h, rfl⟩

theorem execOrchClk_next (e : execOrchClk s = .next s') :
    ∃ t x y u, InTxn s t x y ∧ clk s = .next u ∧ s' = u.putTxn t (s.past x 7) := by
  obtain ⟨t, x, y, h, e⟩ := withTxn_next e
  obtain ⟨u, hu, e⟩ := andThen_next e
  cases e; exact ⟨t, x, y, u, h, hu, rfl⟩

theorem execOrchStart_next (e : execOrchStart s = .next s') :
    ∃ t x y, InTxn s t x y ∧
      s' = (s.putBus x.bus ({ y with status := 0x00000000#32 }.modifyReg .cr1 0x0000#16 CR1_START)).putTxn t
        (s.past x 8) := by
  obtain ⟨t, x, y, h, e⟩ := withTxn_next e
  cases e; exact ⟨t, x, y, h, rfl⟩

/-- The state step 9 leaves when the wait is over. -/
def State.waitOver (s : State) (t : Nat) (x : Txn) (y : Bus) (o : WaitOutcome) : State :=
  (s.putBus x.bus (y.disarm s.interruptMode)).putTxn t { s.past { x with outcome := some o } 9 with wait := .fresh }

theorem recheck_next {t : Nat} {x : Txn} {y : Bus} (e : recheck s t x y = .next s') :
    y.hs = .done ∧ s' = s.waitOver t x y .completed ∨ y.hs ≠ .done ∧ s' = s.putBus x.bus y := by
  unfold recheck at e
  split at e
  · next hd => cases e; exact .inl ⟨hd, rfl⟩
  · next hd => cases e; exact .inr ⟨hd, rfl⟩

theorem answerWait_next {t d : Nat} {x : Txn} {y : Bus} (e : answerWait s t x y d = .next s') :
    (∃ y', (y' = y ∨ (0 < y.sig ∧ y' = { y with sig := y.sig - 1 })) ∧ recheck s t x y' = .next s')
    ∨ (y.sig = 0 ∧ d ≤ s.now ∧ s' = s.waitOver t x y .timedOut) ∨ s' = s := by
  unfold answerWait at e
  split at e
  · exact .inl ⟨y, .inl rfl, e⟩
  · split at e
    · next hs => exact .inl ⟨_, .inr ⟨hs, rfl⟩, e⟩
    · next hs =>
      split at e
      · next hd => cases e; exact .inr (.inl ⟨by omega, hd, rfl⟩)
      · cases e; exact .inr (.inr rfl)

theorem pollAgain_next {t t0 : Nat} {x : Txn} {y : Bus} (e : pollAgain s t x y t0 = .next s') :
    (y.hs = .done ∧ s' = s.waitOver t x y .completed)
    ∨ (y.hs ≠ .done ∧ s.cfg.timeoutTicks ≤ s.now - t0 ∧ s' = s.waitOver t x y .timedOut)
    ∨ (y.hs ≠ .done ∧ s' = s.putBus x.bus (y.enterInvocation s.cfg.traceEn)) := by
  unfold pollAgain at e
  split at e
  · next hd => cases e; exact .inl ⟨hd, rfl⟩
  · next hd =>
    split at e
    · next ht => cases e; exact .inr (.inl ⟨hd, ht, rfl⟩)
    · cases e; exact .inr (.inr ⟨hd, rfl⟩)

theorem execOrchWait_next (e : execOrchWait s = .next s') :
    ∃ t x y, InTxn s t x y ∧
      ((x.wait = .fresh ∧ s.interruptMode = true ∧
          s' = (s.putBus x.bus y.armAndMark).putTxn t { x with wait := .blocked (s.now + s.cfg.timeoutTicks) })
        ∨ (x.wait = .fresh ∧ s.interruptMode = false ∧
          s' = (s.putBus x.bus ({ y with hs := .waiting }.enterInvocation s.cfg.traceEn)).putTxn t
            { x with wait := .polling s.now })
        ∨ (∃ d, x.wait = .blocked d ∧ answerWait s t x y d = .next s')
        ∨ (∃ t0, x.wait = .polling t0 ∧ pollAgain s t x y t0 = .next s')) := by
  obtain ⟨t, x, y, h, e⟩ := withTxn_next e
  refine ⟨t, x, y, h, ?_⟩
  split at e
  · next hw =>
    split at e
    · next hm => cases e; exact .inl ⟨hw, hm, rfl⟩
    · next hm => cases e; exact .inr (.inl ⟨hw, by simpa using hm, rfl⟩)
  · next d hw => exact .inr (.inr (.inl ⟨d, hw, e⟩))
  · next t0 hw => exact .inr (.inr (.inr ⟨t0, hw, e⟩))

theorem execOrchTimeout_next (e : execOrchTimeout s = .next s') :
    ∃ t x y, InTxn s t x y ∧
      s' = ((s.emit (.timedOut x.bus (y.readReg .cr1) y.readStatus)).putBus x.bus
        (y.modifyReg .cr1 CR1_START 0x0000#16)).putTxn t { s.past x 10 with st := y.readStatus, result := .timeout } := by
  obtain ⟨t, x, y, h, e⟩ := withTxn_next e
  cases e; exact ⟨t, x, y, h, rfl⟩

theorem execOrchMask_next (e : execOrchMask s = .next s') :
    ∃ t x y, InTxn s t x y ∧ s' = s.putTxn t { s.past x 11 with st := maskStatus y.status } := by
  obtain ⟨t, x, y, h, e⟩ := withTxn_next e
  cases e; exact ⟨t, x, y, h, rfl⟩

theorem execOrchClassify_next (e : execOrchClassify s = .next s') :
    ∃ t x y, InTxn s t x y ∧ s' = s.putTxn t { s.past x 12 with result := classifyErrors x.st } := by
  obtain ⟨t, x, y, h, e⟩ := withTxn_next e
  cases e; exact ⟨t, x, y, h, rfl⟩

theorem execOrchBusyCheck_next (e : execOrchBusyCheck s = .next s') :
    ∃ t x y, InTxn s t x y ∧ s' = s.putTxn t { s.past x 13 with result := busyCheck x.st x.result } := by
  obtain ⟨t, x, y, h, e⟩ := withTxn_next e
  cases e; exact ⟨t, x, y, h, rfl⟩

theorem execOrchDump_next (e : execOrchDump s = .next s') :
    ∃ t x y, InTxn s t x y ∧ s' = (s.dumpTrace x.bus y).putTxn t (s.past x 14) := by
  obtain ⟨t, x, y, h, e⟩ := withTxn_next e
  cases e; exact ⟨t, x, y, h, rfl⟩

theorem execOrchWaitStop2_next (e : execOrchWaitStop2 s = .next s') :
    ∃ t x y, InTxn s t x y ∧
      (s.cfg.pinConflict x.bus = true ∧ waitStop s t x y 15 = .next s'
        ∨ s.cfg.pinConflict x.bus = false ∧ s' = s.putTxn t (s.past x 15)) := by
  obtain ⟨t, x, y, h, e⟩ := withTxn_next e
  split at e
  · next hc => exact ⟨t, x, y, h, .inl ⟨hc, e⟩⟩
  · next hc => cases e; exact ⟨t, x, y, h, .inr ⟨by simpa using hc, rfl⟩⟩

theorem execOrchXperiphOn_next (e : execOrchXperiphOn s = .next s') :
    ∃ t x y, InTxn s t x y ∧
      (s.cfg.pinConflict x.bus = true ∧ s' = { s with xperiphEn := x.savedX }.putTxn t (s.past x 16)
        ∨ s.cfg.pinConflict x.bus = false ∧ s' = s.putTxn t (s.past x 16)) := by
  obtain ⟨t, x, y, h, e⟩ := withTxn_next e
  split at e <;> cases e
  · next hc => exact ⟨t, x, y, h, .inl ⟨hc, rfl⟩⟩
  · next hc => exact ⟨t, x, y, h, .inr ⟨by simpa using hc, rfl⟩⟩

theorem execOrchUnlock_next (e : execOrchUnlock s = .next s') :
    ∃ t x y, InTxn s t x y ∧ s' = (s.putBus x.bus (y.release s.pick)).raise t x.result := by
  obtain ⟨t, x, y, h, e⟩ := withTxn_next e
  cases e; exact ⟨t, x, y, h, rfl⟩

/-! ### Host commands -/

theorem execOpenBus_next {bus : Int} (e : execOpenBus bus s = .next s') :
    ∃ t, CallerReady s t ∧ (s' = s.raise t .invalidArgument
      ∨ ∃ x, 1 ≤ bus ∧ bus ≤ (s.cfg.nbus : Int) ∧ s.cfg.pclkMinOpen ≤ s.cfg.pclk ∧ s.bus? bus.toNat = some x ∧
          s' = s.openOn t bus.toNat x) := by
  obtain ⟨t, h, e⟩ := withCaller_next e
  refine ⟨t, h, ?_⟩
  split at e
  · cases e; exact .inl rfl
  · next hb =>
    split at e
    · cases e; exact .inl rfl
    · next hp =>
      split at e
      · cases e
      · next x hx => cases e; exact .inr ⟨x, by omega, by omega, by omega, hx, rfl⟩

theorem execCloseHandle_next {h : Option Nat} (e : execCloseHandle h s = .next s') :
    ∃ t n d x, CallerReady s t ∧ h = some n ∧ s.handle? n = some d ∧ s.bus? d.bus = some x ∧
      s' = s.closeOn t n d.bus x := by
  obtain ⟨t, hr, e⟩ := withCaller_next e
  obtain ⟨n, d, hn, hd, e⟩ := withHandle_next e
  split at e
  · cases e
  · next x hx => cases e; exact ⟨t, n, d, x, hr, hn, hd, hx, rfl⟩

theorem execSetFreq_next {h : Option Nat} {hz : Nat} (e : execSetFreq h hz s = .next s') :
    ∃ t n d, CallerReady s t ∧ h = some n ∧ s.handle? n = some d ∧
      (s' = s.raise t .invalidArgument
        ∨ s' = (s.putHandle n { d with frequency := storedFreq s.cfg hz }).raise t .ok) := by
  obtain ⟨t, hr, e⟩ := withCaller_next e
  obtain ⟨n, d, hn, hd, e⟩ := withHandle_next e
  refine ⟨t, n, d, hr, hn, hd, ?_⟩
  split at e <;> cases e
  · exact .inl rfl
  · exact .inr rfl

theorem execSetAddr_next {h : Option Nat} {a bits : Nat} (e : execSetAddr h a bits s = .next s') :
    ∃ t n d, CallerReady s t ∧ h = some n ∧ s.handle? n = some d ∧
      (s' = s.raise t .invalidArgument
        ∨ s' = (s.putHandle n { d with
            address := BitVec.ofNat 16 a, iflags := if bits = 10 then M_TEN else 0x0000#16 }).raise t .ok) := by
  obtain ⟨t, hr, e⟩ := withCaller_next e
  obtain ⟨n, d, hn, hd, e⟩ := withHandle_next e
  refine ⟨t, n, d, hr, hn, hd, ?_⟩
  split at e <;> cases e
  · exact .inl rfl
  · exact .inr rfl

/-- The four transaction commands only put the calling thread at step 1. -/
theorem transaction_next {h : Option Nat} {p : Handle → MsgPtr} {n : Handle → Int} {v : Handle → Option Fault}
    (e : (withCaller s fun t => withHandle s h fun k d => enterExecute s t k d (p d) (n d) (v d)) = .next s') :
    ∃ t k d, CallerReady s t ∧ h = some k ∧ s.handle? k = some d ∧ v d = none ∧
      s' = s.putTxn t (Txn.start k d (p d) (n d)) := by
  obtain ⟨t, hr, e⟩ := withCaller_next e
  obtain ⟨k, d, hk, hd, e⟩ := withHandle_next e
  obtain ⟨hv, hs⟩ := enterExecute_next e
  exact ⟨t, k, d, hr, hk, hd, hv, hs⟩

theorem execWrite_next {h buf : Option Nat} {n : Int} (e : execWrite h buf n s = .next s') :
    ∃ t k d, CallerReady s t ∧ h = some k ∧ s.handle? k = some d ∧ bufferFault buf n = none ∧
      s' = s.putTxn t (Txn.start k d (.call [writeMessage d buf n]) 1) :=
  transaction_next (p := fun d => .call [writeMessage d buf n]) (n := fun _ => 1) (v := fun _ => bufferFault buf n) e

theorem execRead_next {h buf : Option Nat} {n : Int} (e : execRead h buf n s = .next s') :
    ∃ t k d, CallerReady s t ∧ h = some k ∧ s.handle? k = some d ∧ bufferFault buf n = none ∧
      s' = s.putTxn t (Txn.start k d (.call [readMessage d buf n]) 1) :=
  transaction_next (p := fun d => .call [readMessage d buf n]) (n := fun _ => 1) (v := fun _ => bufferFault buf n) e

theorem execWriteRead_next {h wb rb : Option Nat} {wn rn : Int} (e : execWriteRead h wb wn rb rn s = .next s') :
    ∃ t k d, CallerReady s t ∧ h = some k ∧ s.handle? k = some d ∧ writeReadFault wb wn rb rn = none ∧
      s' = s.putTxn t (Txn.start k d (.call (writeReadMessages d wb wn rb rn))
        ((writeReadMessages d wb wn rb rn).length : Int)) :=
  transaction_next (p := fun d => .call (writeReadMessages d wb wn rb rn))
    (n := fun d => ((writeReadMessages d wb wn rb rn).length : Int)) (v := fun _ => writeReadFault wb wn rb rn) e

theorem execTransfer_next {h ms : Option Nat} {n : Int} (e : execTransfer h ms n s = .next s') :
    ∃ t k d, CallerReady s t ∧ h = some k ∧ s.handle? k = some d ∧ transferFault ms n = none ∧
      s' = s.putTxn t (Txn.start k d (.mem (ms.getD 0)) n) :=
  transaction_next (p := fun _ => .mem (ms.getD 0)) (n := fun _ => n) (v := fun _ => transferFault ms n) e

end Sys2Proof.Machine
end

