-- ==== Sys2Proof/Laws/PerInstr.lean ====
section
/-! SUPPORT. Per instruction: the words of a well-formed operation meet its row of spec/opcode_table.json, which gives the
match, the mask and how they apply to the value its format dispatches on (30_encoding.md R100). -/

namespace Sys2Proof.Laws.TableRow

/-- How a row's match and mask apply. -/
inductive Kind where
  | equal
  | anyof
  | always
  deriving DecidableEq, Repr

/-- Match, mask and kind of a row. -/
structure Row where
  bits : Nat
  mask : Nat
  kind : Kind
  deriving DecidableEq, Repr

/-- The row of an operation, as the table has it. -/
def rowOf : Instr → Row
  | .openBus _ => ⟨0x0, 0xff, .equal⟩
  | .closeHandle _ => ⟨0x1, 0xff, .equal⟩
  | .setFreq _ _ => ⟨0x2, 0xff, .equal⟩
  | .setAddr _ _ _ => ⟨0x3, 0xff, .equal⟩
  | .write _ _ _ => ⟨0x4, 0xff, .equal⟩
  | .read _ _ _ => ⟨0x5, 0xff, .equal⟩
  | .writeRead _ _ _ _ _ => ⟨0x6, 0xff, .equal⟩
  | .transfer _ _ _ => ⟨0x7, 0xff, .equal⟩
  | .msgW _ _ _ _ => ⟨0x0, 0x83, .equal⟩
  | .msgR _ _ _ _ => ⟨0x1, 0x83, .equal⟩
  | .msgWNr _ _ _ _ => ⟨0x80, 0x83, .equal⟩
  | .msgRNr _ _ _ _ => ⟨0x81, 0x83, .equal⟩
  | .msgWTen _ _ _ _ => ⟨0x2, 0x83, .equal⟩
  | .msgRTen _ _ _ _ => ⟨0x3, 0x83, .equal⟩
  | .msgWTenNr _ _ _ _ => ⟨0x82, 0x83, .equal⟩
  | .msgRTenNr _ _ _ _ => ⟨0x83, 0x83, .equal⟩
  | .evStart => ⟨0x1, 0x1, .anyof⟩
  | .evTx => ⟨0x82, 0x82, .anyof⟩
  | .evRxAddr => ⟨0x2, 0x2, .anyof⟩
  | .evRx => ⟨0x40, 0x40, .anyof⟩
  | .postBufEn => ⟨0x0, 0x0, .always⟩
  | .postBufDis => ⟨0x0, 0x0, .always⟩
  | .postBtf => ⟨0x4, 0x4, .anyof⟩
  | .postBtfSplice => ⟨0x4, 0x4, .anyof⟩
  | .postBtfRestart => ⟨0x4, 0x4, .anyof⟩
  | .postBtfStop => ⟨0x4, 0x4, .anyof⟩
  | .postBtfNone => ⟨0x4, 0x4, .anyof⟩
  | .postErr => ⟨0xdf00, 0xdf00, .anyof⟩
  | .postLatch => ⟨0x0, 0x0, .always⟩
  | .orchLock => ⟨0x1, 0x1f, .equal⟩
  | .orchXperiphOff => ⟨0x2, 0x1f, .equal⟩
  | .orchWaitStop => ⟨0x3, 0x1f, .equal⟩
  | .orchClrErr => ⟨0x4, 0x1f, .equal⟩
  | .orchClrReq => ⟨0x5, 0x1f, .equal⟩
  | .orchInstall => ⟨0x6, 0x1f, .equal⟩
  | .orchClk => ⟨0x7, 0x1f, .equal⟩
  | .orchStart => ⟨0x8, 0x1f, .equal⟩
  | .orchWait => ⟨0x9, 0x1f, .equal⟩
  | .orchTimeout => ⟨0xa, 0x1f, .equal⟩
  | .orchMask => ⟨0xb, 0x1f, .equal⟩
  | .orchClassify => ⟨0xc, 0x1f, .equal⟩
  | .orchBusyCheck => ⟨0xd, 0x1f, .equal⟩
  | .orchDump => ⟨0xe, 0x1f, .equal⟩
  | .orchWaitStop2 => ⟨0xf, 0x1f, .equal⟩
  | .orchXperiphOn => ⟨0x10, 0x1f, .equal⟩
  | .orchUnlock => ⟨0x11, 0x1f, .equal⟩
  | .clkStd => ⟨0x0, 0xc000, .equal⟩
  | .clkFast2 => ⟨0x8000, 0xc000, .equal⟩
  | .clkFast16_9 => ⟨0xc000, 0xc000, .equal⟩

/-- The value a format dispatches on: the command code, the descriptor's `flags`, the snapshot, the step number, the CCR
value. -/
def dispatchValue : OpWord → Nat
  | .command bs => (bs.headD 0#8).toNat
  | .descriptor bs => fromLe16 (bs.getD 2 0#8) (bs.getD 3 0#8)
  | .action k => k.snap.toNat
  | .step n => n.toNat
  | .ccr v => v.toNat

/-- A value meets a row. -/
def Row.meets (r : Row) (v : Nat) : Bool :=
  match r.kind with
  | .equal => v &&& r.mask == r.bits
  | .anyof => v &&& r.mask != 0
  | .always => true

/-- The words of a well-formed operation meet its row. -/
def Statement (i : Instr) : Prop := i.wf = true → (rowOf i).meets (dispatchValue (encode i)) = true

theorem descriptor_row {kind a rsv : Half} {p : Option Nat} {n : Nat} (hk : kind &&& kindMask = kind)
    (h : WellFormed.descriptor rsv p n = true) :
    dispatchValue (descriptorWord kind a rsv p n) &&& 0x83 = kind.toNat := by
  have hr : rsv &&& kindMask = 0#16 := by
    simp only [WellFormed.descriptor, WellFormed.reservedOnly, Bool.and_eq_true, beq_iff_eq] at h
    exact h.1.1
  have h1 : (rsv ||| kind) &&& kindMask = kind := by
    have : (rsv ||| kind) &&& kindMask = (rsv &&& kindMask) ||| (kind &&& kindMask) := by
      ext i; simp only [BitVec.getElem_and, BitVec.getElem_or]; cases rsv[i] <;> cases kind[i] <;> simp
    rw [this, hr, hk, BitVec.zero_or]
  have h2 : dispatchValue (descriptorWord kind a rsv p n) = (rsv ||| kind).toNat := by
    show fromLe16 (BitVec.ofNat 8 _) (BitVec.ofNat 8 _) = _
    exact fromLe16_le16 (BitVec.isLt _)
  rw [h2]
  have := congrArg BitVec.toNat h1
  simpa [BitVec.toNat_and, kindMask] using this

theorem openBus (bus : Int) : Statement (.openBus bus) := by
  simp [Statement, rowOf, Row.meets, dispatchValue, encode, commandWord]

theorem closeHandle (h : Option Nat) : Statement (.closeHandle h) := by
  simp [Statement, rowOf, Row.meets, dispatchValue, encode, commandWord]

theorem setFreq (h : Option Nat) (hz : Nat) : Statement (.setFreq h hz) := by
  simp [Statement, rowOf, Row.meets, dispatchValue, encode, commandWord]

theorem setAddr (h : Option Nat) (address bits : Nat) : Statement (.setAddr h address bits) := by
  simp [Statement, rowOf, Row.meets, dispatchValue, encode, commandWord]

theorem write (h buffer : Option Nat) (length : Int) : Statement (.write h buffer length) := by
  simp [Statement, rowOf, Row.meets, dispatchValue, encode, commandWord]

theorem read (h buffer : Option Nat) (length : Int) : Statement (.read h buffer length) := by
  simp [Statement, rowOf, Row.meets, dispatchValue, encode, commandWord]

theorem writeRead (h wbuffer : Option Nat) (wlen : Int) (rbuffer : Option Nat) (rlen : Int) : Statement (.writeRead h wbuffer wlen rbuffer rlen) := by
  simp [Statement, rowOf, Row.meets, dispatchValue, encode, commandWord]

theorem transfer (h messages : Option Nat) (count : Int) : Statement (.transfer h messages count) := by
  simp [Statement, rowOf, Row.meets, dispatchValue, encode, commandWord]

theorem msgW (addr rsv : Half) (buffer : Option Nat) (length : Nat) : Statement (.msgW addr rsv buffer length) :=
  fun h => beq_iff_eq.mpr (descriptor_row rfl h)

theorem msgR (addr rsv : Half) (buffer : Option Nat) (length : Nat) : Statement (.msgR addr rsv buffer length) :=
  fun h => beq_iff_eq.mpr (descriptor_row rfl h)

theorem msgWNr (addr rsv : Half) (buffer : Option Nat) (length : Nat) : Statement (.msgWNr addr rsv buffer length) :=
  fun h => beq_iff_eq.mpr (descriptor_row rfl h)

theorem msgRNr (addr rsv : Half) (buffer : Option Nat) (length : Nat) : Statement (.msgRNr addr rsv buffer length) :=
  fun h => beq_iff_eq.mpr (descriptor_row rfl h)

theorem msgWTen (addr rsv : Half) (buffer : Option Nat) (length : Nat) : Statement (.msgWTen addr rsv buffer length) :=
  fun h => beq_iff_eq.mpr (descriptor_row rfl h)

theorem msgRTen (addr rsv : Half) (buffer : Option Nat) (length : Nat) : Statement (.msgRTen addr rsv buffer length) :=
  fun h => beq_iff_eq.mpr (descriptor_row rfl h)

theorem msgWTenNr (addr rsv : Half) (buffer : Option Nat) (length : Nat) : Statement (.msgWTenNr addr rsv buffer length) :=
  fun h => beq_iff_eq.mpr (descriptor_row rfl h)

theorem msgRTenNr (addr rsv : Half) (buffer : Option Nat) (length : Nat) : Statement (.msgRTenNr addr rsv buffer length) :=
  fun h => beq_iff_eq.mpr (descriptor_row rfl h)

theorem evStart : Statement (.evStart) := fun _ => by decide

theorem evTx : Statement (.evTx) := fun _ => by decide

theorem evRxAddr : Statement (.evRxAddr) := fun _ => by decide

theorem evRx : Statement (.evRx) := fun _ => by decide

theorem postBufEn : Statement (.postBufEn) := fun _ => by decide

theorem postBufDis : Statement (.postBufDis) := fun _ => by decide

theorem postBtf : Statement (.postBtf) := fun _ => by decide

theorem postBtfSplice : Statement (.postBtfSplice) := fun _ => by decide

theorem postBtfRestart : Statement (.postBtfRestart) := fun _ => by decide

theorem postBtfStop : Statement (.postBtfStop) := fun _ => by decide

theorem postBtfNone : Statement (.postBtfNone) := fun _ => by decide

theorem postErr : Statement (.postErr) := fun _ => by decide

theorem postLatch : Statement (.postLatch) := fun _ => by decide

theorem orchLock : Statement (.orchLock) := fun _ => by decide

theorem orchXperiphOff : Statement (.orchXperiphOff) := fun _ => by decide

theorem orchWaitStop : Statement (.orchWaitStop) := fun _ => by decide

theorem orchClrErr : Statement (.orchClrErr) := fun _ => by decide

theorem orchClrReq : Statement (.orchClrReq) := fun _ => by decide

theorem orchInstall : Statement (.orchInstall) := fun _ => by decide

theorem orchClk : Statement (.orchClk) := fun _ => by decide

theorem orchStart : Statement (.orchStart) := fun _ => by decide

theorem orchWait : Statement (.orchWait) := fun _ => by decide

theorem orchTimeout : Statement (.orchTimeout) := fun _ => by decide

theorem orchMask : Statement (.orchMask) := fun _ => by decide

theorem orchClassify : Statement (.orchClassify) := fun _ => by decide

theorem orchBusyCheck : Statement (.orchBusyCheck) := fun _ => by decide

theorem orchDump : Statement (.orchDump) := fun _ => by decide

theorem orchWaitStop2 : Statement (.orchWaitStop2) := fun _ => by decide

theorem orchXperiphOn : Statement (.orchXperiphOn) := fun _ => by decide

theorem orchUnlock : Statement (.orchUnlock) := fun _ => by decide

theorem clkStd : Statement (.clkStd) := fun _ => by decide

theorem clkFast2 : Statement (.clkFast2) := fun _ => by decide

theorem clkFast16_9 : Statement (.clkFast16_9) := fun _ => by decide

end Sys2Proof.Laws.TableRow
end

