-- ==== Sys2Proof/Tests/Slice0.lean ====
section
/-! SUPPORT. Tests. Expected values come from the spec: the encoding tables of 30_encoding.md and the vectors of
95_test_vectors.md (each test names its row). Then one witness theorem for each statement with hypotheses: a concrete
state and operands that meet them together, at the boundary values of its clauses. -/

namespace Sys2Proof.Tests

open Sys2Proof Sys2Proof.Machine

/-! ### Small states -/

def nextOf : Out → Option State
  | .next s => some s
  | .fault _ => none
  | .refused _ => none

def faultOf : Out → Option Fault
  | .next _ => none
  | .fault f => some f
  | .refused _ => none

def refusalOf : Out → Option Refusal
  | .next _ => none
  | .fault _ => none
  | .refused r => some r

/-- Bus 1 after the first OPEN (95_test_vectors.md L3). -/
def bus1 : Bus :=
  { Bus.reset ⟨0x40005400, false⟩ with refs := 1, cr1 := 0x0001#16, irqAttached := true, irqEnabled := true }

def bus2 : Bus := Bus.reset ⟨0x40005800, true⟩

def handle0 : Handle := ⟨1, 100000, 0x0050#16, 0x0000#16⟩

/-- One handle of bus 1 is open; `x` is bus 1. -/
def withBus (x : Bus) : State :=
  { State.reset with buses := [(1, x), (2, bus2)], handles := [(0, handle0)], nextHandle := 1 }

def ready : State := withBus bus1

/-- The interrupt context of bus 1 runs an invocation on `x` with a snapshot, at a stage. -/
def invOn (x : Bus) (snap : Word32) (st : Stage) : State :=
  { withBus { x with inv := some ⟨snap, st⟩ } with cur := .isr 1 }

/-- Caller memory of 95_test_vectors.md P1: one descriptor W(0x50, 0x2000, 3) at 0x1000 and three bytes at 0x2000. -/
def mem1 : List Host.Cell :=
  writeBytes (writeBytes [] 0x1000
    [0x50#8, 0x00#8, 0x00#8, 0x00#8, 0x00#8, 0x20#8, 0x00#8, 0x00#8, 0x03#8, 0x00#8, 0x00#8, 0x00#8])
    0x2000 [0x01#8, 0x02#8, 0x03#8]

def polled : Config := { Config.platform with mode := .polled }

/-- A transaction of thread 0 on a bus, at a step. -/
def txn (b n : Nat) : Txn := { Txn.start 0 { handle0 with bus := b } (.mem 0x1000) 1 with step := n }

/-- Thread 0 is inside a transaction; bus 1 is `y`. -/
def inTxn (y : Bus) (x : Txn) : State := { withBus y with threads := [(0, ⟨some x, none⟩)] }

def held : Bus := { bus1 with lock := .held 0 }

/-- What is left of bus 1 and of the transaction of thread 0. -/
def bus1Of (o : Out) : Option Bus := (nextOf o).bind (·.bus? 1)
def txnOf (o : Out) : Option Txn := (nextOf o).bind (fun s => (s.thread 0).txn)
def retOf (o : Out) : Option Ret := (nextOf o).bind (fun s => (s.thread 0).ret)

/-! ### Well-formedness: one ill-formed term for each check, refused -/

theorem test_wf_nat32 : (Instr.setFreq (some 0) 4294967296).wf = false := by decide
theorem test_wf_int32_high : (Instr.openBus 2147483648).wf = false := by decide
theorem test_wf_int32_low : (Instr.openBus (-2147483649)).wf = false := by decide
theorem test_wf_handle : (Instr.closeHandle (some 4294967295)).wf = false := by decide
theorem test_wf_pointer_zero : (Instr.write (some 0) (some 0) 1).wf = false := by decide
theorem test_wf_pointer_high : (Instr.write (some 0) (some 4294967296) 1).wf = false := by decide
theorem test_wf_reserved_only : (Instr.msgW 0x50#16 0x0080#16 none 0).wf = false := by decide
theorem test_wf_length : (Instr.msgW 0x50#16 0#16 none 2147483648).wf = false := by decide
theorem test_wf_accepts : (Instr.writeRead (some 0) (some 0x2000) 2 (some 0x3000) (-5)).wf = true := by decide

/-! ### Decoding: a word of every constructor, written out from 30_encoding.md R101 to R106, R110, R200 -/

/-- R106 with the operand fields of log entry 6. -/
theorem test_decode_commands :
    decode (.command [0x00#8, 0x02#8, 0x00#8, 0x00#8, 0x00#8]) = .ok (.openBus 2)
    ∧ decode (.command [0x00#8, 0xFF#8, 0xFF#8, 0xFF#8, 0xFF#8]) = .ok (.openBus (-1))
    ∧ decode (.command [0x01#8, 0x05#8, 0x00#8, 0x00#8, 0x00#8]) = .ok (.closeHandle (some 5))
    ∧ decode (.command [0x02#8, 0x00#8, 0x00#8, 0x00#8, 0x00#8, 0xA0#8, 0x86#8, 0x01#8, 0x00#8])
        = .ok (.setFreq (some 0) 100000)
    ∧ decode (.command [0x03#8, 0x00#8, 0x00#8, 0x00#8, 0x00#8, 0x50#8, 0x03#8, 0x00#8, 0x00#8, 0x0A#8, 0x00#8, 0x00#8,
        0x00#8]) = .ok (.setAddr (some 0) 0x350 10)
    ∧ decode (.command [0x04#8, 0x00#8, 0x00#8, 0x00#8, 0x00#8, 0x00#8, 0x20#8, 0x00#8, 0x00#8, 0x03#8, 0x00#8, 0x00#8,
        0x00#8]) = .ok (.write (some 0) (some 0x2000) 3)
    ∧ decode (.command [0x05#8, 0x00#8, 0x00#8, 0x00#8, 0x00#8, 0x00#8, 0x30#8, 0x00#8, 0x00#8, 0x02#8, 0x00#8, 0x00#8,
        0x00#8]) = .ok (.read (some 0) (some 0x3000) 2)
    ∧ decode (.command [0x06#8, 0x00#8, 0x00#8, 0x00#8, 0x00#8, 0x00#8, 0x20#8, 0x00#8, 0x00#8, 0x02#8, 0x00#8, 0x00#8,
        0x00#8, 0x00#8, 0x30#8, 0x00#8, 0x00#8, 0xFB#8, 0xFF#8, 0xFF#8, 0xFF#8])
        = .ok (.writeRead (some 0) (some 0x2000) 2 (some 0x3000) (-5))
    ∧ decode (.command [0x07#8, 0xFF#8, 0xFF#8, 0xFF#8, 0xFF#8, 0x00#8, 0x10#8, 0x00#8, 0x00#8, 0x02#8, 0x00#8, 0x00#8,
        0x00#8]) = .ok (.transfer none (some 0x1000) 2) := by decide

/-- R112: reserved codes; a command cut short. -/
theorem test_decode_rejects :
    decode (.command [0x08#8]) = .error .reservedCode ∧ decode (.command [0xFF#8]) = .error .reservedCode
    ∧ decode (.command []) = .error .empty ∧ decode (.command [0x00#8, 0x01#8]) = .error .truncated
    ∧ decode (.step 0x12#8) = .error .reservedStep ∧ decode (.ccr 0x4000#16) = .error .reservedMode
    ∧ decode (.descriptor [0x50#8, 0#8, 0#8, 0#8, 0#8, 0#8, 0#8, 0#8, 0#8, 0#8, 0#8, 0x80#8]) = .error .badLength := by
  decide

/-- The word of a message at address 0x50 with a kind and flag byte 1, buffer 0x2000 and length 2 (R101). -/
def word (fl hi : Byte) : OpWord :=
  .descriptor [0x50#8, 0x00#8, fl, hi, 0x00#8, 0x20#8, 0x00#8, 0x00#8, 0x02#8, 0x00#8, 0x00#8, 0x00#8]

/-- R103, with a reserved flag bit kept (R102). -/
theorem test_decode_messages :
    decode (word 0x00#8 0x00#8) = .ok (.msgW 0x50#16 0x0000#16 (some 0x2000) 2)
    ∧ decode (word 0x01#8 0x00#8) = .ok (.msgR 0x50#16 0x0000#16 (some 0x2000) 2)
    ∧ decode (word 0x80#8 0x00#8) = .ok (.msgWNr 0x50#16 0x0000#16 (some 0x2000) 2)
    ∧ decode (word 0x81#8 0x00#8) = .ok (.msgRNr 0x50#16 0x0000#16 (some 0x2000) 2)
    ∧ decode (word 0x02#8 0x00#8) = .ok (.msgWTen 0x50#16 0x0000#16 (some 0x2000) 2)
    ∧ decode (word 0x03#8 0x00#8) = .ok (.msgRTen 0x50#16 0x0000#16 (some 0x2000) 2)
    ∧ decode (word 0x82#8 0x00#8) = .ok (.msgWTenNr 0x50#16 0x0000#16 (some 0x2000) 2)
    ∧ decode (word 0x83#8 0x00#8) = .ok (.msgRTenNr 0x50#16 0x0000#16 (some 0x2000) 2)
    ∧ decode (word 0x05#8 0x40#8) = .ok (.msgR 0x50#16 0x4004#16 (some 0x2000) 2) := by decide

/-- R105, rows A1 to A4 on the snapshots of 95_test_vectors.md L2.3 (1, 4, 5, 9, 10, 12, 25). -/
theorem test_decode_stage_a :
    decode (.action ⟨.a, true, 0x00030001#32, 0#16, 0, 1, false, false⟩) = .ok .evStart
    ∧ decode (.action ⟨.a, true, 0x00030003#32, 0#16, 0, 1, false, false⟩) = .ok .evStart
    ∧ decode (.action ⟨.a, true, 0x00070082#32, 0#16, 3, 0, false, false⟩) = .ok .evTx
    ∧ decode (.action ⟨.a, true, 0x00070080#32, 0#16, -1, 0, false, false⟩) = .ok .evTx
    ∧ decode (.action ⟨.a, true, 0x00030002#32, 1#16, 2, 0, false, false⟩) = .ok .evRxAddr
    ∧ decode (.action ⟨.a, true, 0x00030040#32, 1#16, 2, 0, false, false⟩) = .ok .evRx
    ∧ decode (.action ⟨.a, true, 0x00030040#32, 0#16, 2, 0, false, false⟩) = .ok .evRx := by decide

/-- R105 stages B, C, D and the end (L2.3 rows 6, 7, 8, 16, 17, 18, 22, 26). -/
theorem test_decode_stages_b_to_end :
    decode (.action ⟨.a, true, 0x00030080#32, 1#16, 2, 0, false, false⟩) = .ok .postBufEn
    ∧ decode (.action ⟨.b, true, 0x00070080#32, 0#16, 1, 0, false, false⟩) = .ok .postBufEn
    ∧ decode (.action ⟨.b, true, 0x00070080#32, 0#16, 0, 0, false, false⟩) = .ok .postBufDis
    ∧ decode (.action ⟨.b, true, 0x00070084#32, 0#16, -1, 0, false, false⟩) = .ok .postBtf
    ∧ decode (.action ⟨.b, false, 0x00070084#32, 0#16, 0, 0, false, false⟩) = .ok .postBtf
    ∧ decode (.action ⟨.c, true, 0x00070084#32, 0#16, 1, 0, false, false⟩) = .ok .postLatch
    ∧ decode (.action ⟨.sub, true, 0x00070084#32, 0#16, -2, 1, false, true⟩) = .ok .postBtfSplice
    ∧ decode (.action ⟨.sub, true, 0x00070084#32, 0#16, -2, 1, false, false⟩) = .ok .postBtfRestart
    ∧ decode (.action ⟨.sub, true, 0x00070084#32, 0#16, -1, 0, false, false⟩) = .ok .postBtfStop
    ∧ decode (.action ⟨.sub, true, 0x00070084#32, 0#16, -2, 0, true, false⟩) = .ok .postBtfNone
    ∧ decode (.action ⟨.d, true, 0x00030400#32, 0#16, 1, 0, false, false⟩) = .ok .postErr
    ∧ decode (.action ⟨.d, true, 0x00000000#32, 0#16, 0, 0, true, false⟩) = .ok .postLatch
    ∧ decode (.action ⟨.fin, true, 0x00030400#32, 0#16, 1, 0, false, false⟩) = .ok .postLatch := by decide

/-- R200: the step numbers; R110: the modes of the CCR values 0x00B4, 0x801E and 0xC003 (L2.1). -/
theorem test_decode_steps_and_modes :
    decode (.step 1#8) = .ok .orchLock ∧ decode (.step 2#8) = .ok .orchXperiphOff
    ∧ decode (.step 3#8) = .ok .orchWaitStop ∧ decode (.step 4#8) = .ok .orchClrErr
    ∧ decode (.step 5#8) = .ok .orchClrReq ∧ decode (.step 6#8) = .ok .orchInstall
    ∧ decode (.step 7#8) = .ok .orchClk ∧ decode (.step 8#8) = .ok .orchStart
    ∧ decode (.step 9#8) = .ok .orchWait ∧ decode (.step 10#8) = .ok .orchTimeout
    ∧ decode (.step 11#8) = .ok .orchMask ∧ decode (.step 12#8) = .ok .orchClassify
    ∧ decode (.step 13#8) = .ok .orchBusyCheck ∧ decode (.step 14#8) = .ok .orchDump
    ∧ decode (.step 15#8) = .ok .orchWaitStop2 ∧ decode (.step 16#8) = .ok .orchXperiphOn
    ∧ decode (.step 17#8) = .ok .orchUnlock
    ∧ decode (.ccr 0x00B4#16) = .ok .clkStd ∧ decode (.ccr 0x801E#16) = .ok .clkFast2
    ∧ decode (.ccr 0xC003#16) = .ok .clkFast16_9 := by decide

/-- The words of spec/opcode_table.json, in the format each is read in (log entry 12). -/
theorem test_decode_table_words :
    decodeTableWord 8 0x07 = some (.transfer (some 0) none 0) ∧ decodeTableWord 8 0x83 = some (.msgRTenNr 0#16 0#16 none 0)
    ∧ decodeTableWord 32 0x82 = some .evTx ∧ decodeTableWord 8 0x40 = some .evRx ∧ decodeTableWord 16 0xDF00 = some .postErr
    ∧ decodeTableWord 8 0x11 = some .orchUnlock ∧ decodeTableWord 16 0xC000 = some .clkFast16_9 := by decide

/-! ### Host commands (L2.6) -/

theorem test_open_first : (bus1Of (exec (.openBus 1) State.reset)).map (fun x => (x.refs, x.cr1, x.trise, x.irqEnabled))
    = some (1, 0x0001#16, 0x0002#16, true) := by decide
theorem test_open_bad_bus : retOf (exec (.openBus 3) State.reset) = some (.kind .invalidArgument) := by decide
theorem test_close_last :
    (bus1Of (exec (.closeHandle (some 0)) (withBus { bus1 with ccr := 0x00B4#16, oar1 := 0x4000#16 }))).map
      (fun x => (x.refs, x.cr1, x.ccr, x.trise, x.oar1, x.irqAttached))
    = some (0, 0x0000#16, 0x0000#16, 0x0002#16, 0x0000#16, false) := by decide
theorem test_close_dead : refusalOf (exec (.closeHandle (some 1)) ready) = some .deadHandle := by decide
theorem test_setfreq_clamped :
    ((nextOf (exec (.setFreq (some 0) 400000) { ready with cfg := { Config.platform with pclk := 2000000 } })).bind
      (·.handle? 0)).map (·.frequency) = some 100000 := by decide
theorem test_setfreq_stored :
    ((nextOf (exec (.setFreq (some 0) 1000000) ready)).bind (·.handle? 0)).map (·.frequency) = some 1000000 := by decide
theorem test_setaddr_truncates :
    ((nextOf (exec (.setAddr (some 0) 0x12345 10) ready)).bind (·.handle? 0)).map (fun d => (d.address, d.iflags))
    = some (0x2345#16, 0x0002#16) := by decide
theorem test_write_expands : (txnOf (exec (.write (some 0) (some 0x2000) 3) ready)).map (fun x => (x.messages, x.count, x.step))
    = some (.call [⟨0x50#16, 0x0000#16, some 0x2000, 3⟩], 1, 1) := by decide
theorem test_read_expands : (txnOf (exec (.read (some 0) (some 0x3000) 2) ready)).map (fun x => (x.messages, x.count))
    = some (.call [⟨0x50#16, 0x0001#16, some 0x3000, 2⟩], 1) := by decide
theorem test_writeread_no_restart :
    (txnOf (exec (.writeRead (some 0) (some 0x2000) 2 (some 0x3000) (-5)) ready)).map (fun x => (x.messages, x.count))
    = some (.call [⟨0x50#16, 0x0000#16, some 0x2000, 2⟩, ⟨0x50#16, 0x0081#16, some 0x3000, 5⟩], 2) := by decide
theorem test_writeread_null_read :
    faultOf (exec (.writeRead (some 0) (some 0x2000) 2 none 3) ready) = some .assertion := by decide
theorem test_transfer_enters : (txnOf (exec (.transfer (some 0) (some 0x1000) 2) ready)).map (fun x => (x.messages, x.count))
    = some (.mem 0x1000, 2) := by decide
theorem test_transfer_count_zero : faultOf (exec (.transfer (some 0) (some 0x1000) 0) ready) = some .assertion := by decide

/-! ### Messages: the address byte (L2.2), and the splice (L2.3 row 16) -/

def started : Bus := { bus1 with msgv := some (.mem 0x1000), msgc := 1, cr2 := 0x0300#16 }

def byteOf (i : Instr) : Option (List Byte) := (bus1Of (exec i (invOn started 0x00030001#32 .a))).map (·.txLog)

theorem test_msg_w : byteOf (.msgW 0x00D0#16 0#16 (some 0x2000) 3) = some [0xA0#8] := by decide
theorem test_msg_r : byteOf (.msgR 0x007F#16 0#16 (some 0x3000) 2) = some [0xFF#8] := by decide
theorem test_msg_w_nr_first : byteOf (.msgWNr 0x0001#16 0#16 (some 0x2000) 1) = some [0x02#8] := by decide
theorem test_msg_w_ten : byteOf (.msgWTen 0x0350#16 0#16 (some 0x2000) 1) = some [0x00#8] := by decide
theorem test_msg_r_ten : byteOf (.msgRTen 0x0350#16 0#16 (some 0x3000) 1) = some [0x00#8] := by decide
theorem test_msg_r_ack :
    (bus1Of (exec (.msgR 0x50#16 0#16 (some 0x3000) 2) (invOn started 0x00030001#32 .a))).map (·.cr1)
    = some 0x0401#16 := by decide
theorem test_msg_r_one_byte_no_ack :
    (bus1Of (exec (.msgR 0x50#16 0#16 (some 0x3000) 1) (invOn started 0x00030001#32 .a))).map (·.cr1)
    = some 0x0001#16 := by decide
theorem test_msg_w_nr_spliced :
    (bus1Of (exec (.msgWNr 0x50#16 0#16 (some 0x2100) 2) (invOn started 0x00070084#32 .sub))).map
      (fun x => ((x.ptr, x.dcnt, x.flags), x.msgv, x.msgc, x.cr2, x.txLog))
    = some ((some 0x2100, 2, 0x0080#16), some (.mem 0x100C), 0, 0x0700#16, []) := by decide
theorem test_msg_r_nr_spliced_no_ack :
    (bus1Of (exec (.msgRNr 0x50#16 0#16 (some 0x3000) 5) (invOn started 0x00070084#32 .sub))).map
      (fun x => (x.flags, x.cr1, x.txLog)) = some (0x0081#16, 0x0001#16, []) := by decide
theorem test_msg_w_ten_nr_spliced :
    (bus1Of (exec (.msgWTenNr 0x350#16 0#16 none 0) (invOn started 0x00070084#32 .sub))).map (fun x => (x.flags, x.txLog))
    = some (0x0082#16, []) := by decide
theorem test_msg_r_ten_nr_spliced :
    (bus1Of (exec (.msgRTenNr 0x350#16 0#16 none 0) (invOn started 0x00070084#32 .sub))).map (fun x => (x.flags, x.txLog))
    = some (0x0083#16, []) := by decide

/-! ### TSM (L2.3; the row is named) -/

def act (i : Instr) (x : Bus) (snap : Word32) (st : Stage) : Out := exec i { invOn x snap st with mem := mem1 }

/-- Row 1. -/
theorem test_ev_start : (bus1Of (act .evStart started 0x00030001#32 .a)).map
      (fun x => ((x.ptr, x.dcnt, x.flags), x.msgv, x.msgc, x.txLog, x.cr1))
    = some ((some 0x2000, 3, 0x0000#16), some (.mem 0x100C), 0, [0xA0#8], 0x0001#16) := by decide
/-- Row 24. -/
theorem test_ev_start_no_message : faultOf (act .evStart bus1 0x00030001#32 .a) = some .startWithoutMessage := by decide
/-- Row 5. -/
theorem test_ev_tx : (bus1Of (act .evTx { bus1 with dcnt := 3, ptr := some 0x2000 } 0x00070082#32 .a)).map
      (fun x => (x.dcnt, x.ptr, x.txLog, x.trLog.map (fun e => (e.tag, e.param))))
    = some (2, some 0x2001, [0x01#8], [(.phase, 0), (.send, 1)]) := by decide
/-- Row 9. -/
theorem test_ev_tx_negative : (bus1Of (act .evTx { bus1 with dcnt := -1 } 0x00070080#32 .a)).map
      (fun x => (x.dcnt, x.txLog, x.trLog)) = some (-2, [], []) := by decide
/-- Row 10. -/
theorem test_ev_rxaddr : (bus1Of (act .evRxAddr { bus1 with dcnt := 2, flags := 1#16, cr2 := 0x0300#16 } 0x00030002#32 .a)).map
      (fun x => (x.cr2, x.dcnt, x.trLog.map (fun e => (e.tag, e.param)))) = some (0x0700#16, 2, [(.itbufen, 0)]) := by decide
/-- Row 11. -/
theorem test_ev_rxaddr_polled :
    (bus1Of (exec .evRxAddr { invOn { bus1 with dcnt := 2, flags := 1#16 } 0x00030002#32 .a with cfg := polled })).map
      (fun x => (x.cr2, x.trLog)) = some (0x0000#16, []) := by decide
/-- Row 12. -/
theorem test_ev_rx :
    (bus1Of (act .evRx { bus1 with dcnt := 2, flags := 1#16, ptr := some 0x3000, cr1 := 0x0401#16, dr := 0x5A#8 }
      0x00030040#32 .a)).map (fun x => (x.dcnt, x.ptr, x.cr1)) = some (1, some 0x3001, 0x0001#16) := by decide
/-- Row 12, the byte stored. -/
theorem test_ev_rx_stores :
    (nextOf (act .evRx { bus1 with dcnt := 2, flags := 1#16, ptr := some 0x3000, cr1 := 0x0401#16, dr := 0x5A#8 }
      0x00030040#32 .a)).map (fun s => kget s.mem 0x3000) = some (some 0x5A#8) := by decide
/-- Row 6. -/
theorem test_post_bufdis : (bus1Of (act .postBufDis { bus1 with cr2 := 0x0700#16 } 0x00070080#32 .b)).map (·.cr2)
    = some 0x0300#16 := by decide
/-- Row 26. -/
theorem test_post_bufen : (bus1Of (act .postBufEn { bus1 with cr2 := 0x0300#16, dcnt := 2 } 0x00030080#32 .b)).map (·.cr2)
    = some 0x0700#16 := by decide
/-- Row 21: the discard read changes nothing. -/
theorem test_post_btf : (bus1Of (act .postBtf bus1 0x00000004#32 .c)).map (fun x => (x.dr, x.inv))
    = some (0x00#8, some ⟨0x00000004#32, .sub⟩) := by decide
/-- Row 16. -/
theorem test_post_btf_splice :
    (bus1Of (exec .postBtfSplice
      (invOn { started with msgv := some (.call [⟨0x50#16, 0x0080#16, some 0x2100, 2⟩]), dcnt := -2 } 0x00070084#32 .sub))).map
      (fun x => ((x.ptr, x.dcnt, x.flags), x.msgc, x.cr2, x.cr1, x.trLog))
    = some ((some 0x2100, 2, 0x0080#16), 0, 0x0700#16, 0x0001#16, []) := by decide
/-- Row 17. -/
theorem test_post_btf_restart : (bus1Of (act .postBtfRestart started 0x00070084#32 .sub)).map
      (fun x => (x.cr1, x.msgc, x.trLog.map (fun e => (e.tag, e.param)))) = some (0x0101#16, 1, [(.restart, 1)]) := by decide
/-- Row 7. -/
theorem test_post_btf_stop :
    (bus1Of (act .postBtfStop { bus1 with hs := .waiting, msgv := some (.mem 0x100C) } 0x00070084#32 .sub)).map
      (fun x => (x.cr1, x.sig, x.hs, x.msgv)) = some (0x0201#16, 1, .done, none) := by decide
/-- Row 8. -/
theorem test_post_btf_none : (bus1Of (act .postBtfNone { bus1 with hs := .done, sig := 1 } 0x00070084#32 .sub)).map
      (fun x => (x.cr1, x.sig)) = some (0x0001#16, 1) := by decide
/-- Row 20: event flags stay. -/
theorem test_post_err : (bus1Of (act .postErr { bus1 with hs := .waiting, sr1 := 0x0984#16 } 0x00070984#32 .d)).map
      (fun x => (x.sr1, x.sig, x.hs)) = some (0x0084#16, 1, .done) := by decide
/-- Row 19. -/
theorem test_post_err_no_waiter : (bus1Of (act .postErr { bus1 with sr1 := 0x0400#16 } 0x00030400#32 .d)).map
      (fun x => (x.sr1, x.sig, x.hs)) = some (0x0000#16, 0, .idle) := by decide
/-- Row 18. -/
theorem test_post_latch : (bus1Of (act .postLatch bus1 0x00030400#32 .fin)).map (fun x => (x.status, x.inv))
    = some (0x00030400#32, none) := by decide

/-! ### ORCH (95_test_vectors.md L3, the step table, and L2.8, L2.9) -/

theorem test_orch_lock : (bus1Of (exec .orchLock (inTxn bus1 (txn 1 1)))).map (·.lock) = some (.held 0) := by decide
theorem test_orch_lock_blocks : (bus1Of (exec .orchLock (inTxn { bus1 with lock := .held 1 } (txn 1 1)))).map
      (fun x => (x.lock, x.waiters)) = some (.held 1, [0]) := by decide
theorem test_orch_xperiph_off :
    (nextOf (exec .orchXperiphOff { inTxn held (txn 2 2) with xperiphEn := true })).map
      (fun s => (s.xperiphEn, (s.thread 0).txn.map (·.savedX))) = some (false, some true) := by decide
theorem test_orch_xperiph_on :
    (nextOf (exec .orchXperiphOn (inTxn held { txn 2 16 with savedX := true }))).map (·.xperiphEn) = some true := by decide
theorem test_orch_waitstop : (txnOf (exec .orchWaitStop (inTxn held (txn 1 3)))).map (·.step) = some 4 := by decide
theorem test_orch_waitstop_polls : (txnOf (exec .orchWaitStop (inTxn { held with cr1 := 0x0201#16 } (txn 1 3)))).map
      (fun x => (x.step, x.stopT0)) = some (3, some 0) := by decide
theorem test_orch_clrerr : (bus1Of (exec .orchClrErr (inTxn { held with sr1 := 0xDFDF#16 } (txn 1 4)))).map (·.sr1)
    = some 0x00DF#16 := by decide
theorem test_orch_clrreq : (bus1Of (exec .orchClrReq (inTxn { held with cr1 := 0x1701#16 } (txn 1 5)))).map (·.cr1)
    = some 0x0401#16 := by decide
theorem test_orch_install : (bus1Of (exec .orchInstall (inTxn { held with dcnt := -3, trIsr := 7 } (txn 1 6)))).map
      (fun x => (x.msgv, x.msgc, x.ptr, x.dcnt, x.flags, x.trIsr)) = some (some (.mem 0x1000), 1, none, 0, 0#16, 0) := by
  decide
/-- L2.1, the register trace of one run. -/
theorem test_orch_clk : (bus1Of (exec .orchClk (inTxn held (txn 1 7)))).map (fun x => (x.cr1, x.ccr, x.trise, x.oar1))
    = some (0x0001#16, 0x00B4#16, 0x0025#16, 0x4000#16) := by decide
theorem test_orch_start : (bus1Of (exec .orchStart (inTxn { held with status := 0x00030400#32 } (txn 1 8)))).map
      (fun x => (x.status, x.cr1)) = some (0x00000000#32, 0x0101#16) := by decide
theorem test_orch_wait_arms : (bus1Of (exec .orchWait (inTxn held (txn 1 9)))).map (fun x => (x.cr2, x.hs))
    = some (0x0300#16, .waiting) := by decide
/-- L2.8 row 4: a completion that raced the deadline wins. -/
theorem test_orch_wait_woken :
    (nextOf (exec .orchWait { inTxn { held with hs := .done, sig := 1, cr2 := 0x0300#16 } { txn 1 9 with wait := .blocked 50 }
      with now := 50 })).map (fun s => ((s.bus? 1).map (fun x => (x.hs, x.sig, x.cr2)), (s.thread 0).txn.map (·.step)))
    = some (some (.idle, 0, 0x0000#16), some 11) := by decide
/-- P6. -/
theorem test_orch_timeout :
    (nextOf (exec .orchTimeout (inTxn { held with cr1 := 0x0101#16 } (txn 1 10)))).map
      (fun s => ((s.bus? 1).map (·.cr1), (s.thread 0).txn.map (fun x => (x.result, x.step))))
    = some (some 0x0001#16, some (.timeout, 14)) := by decide
/-- P1: BUSY is masked. -/
theorem test_orch_mask : (txnOf (exec .orchMask (inTxn { held with status := 0x00070084#32 } (txn 1 11)))).map (·.st)
    = some 0x00000084#32 := by decide
theorem test_orch_classify : (txnOf (exec .orchClassify (inTxn held { txn 1 12 with st := 0x00000400#32 }))).map (·.result)
    = some .noSuchDevice := by decide
theorem test_orch_busycheck : (txnOf (exec .orchBusyCheck (inTxn held { txn 1 13 with st := 0x00020000#32 }))).map (·.result)
    = some .resourceBusy := by decide
theorem test_orch_dump :
    (nextOf (exec .orchDump (inTxn { held with trLog := [⟨0x00030001#32, 1, .start, 1⟩] } (txn 1 14)))).map (·.sink)
    = some [.dump 1 [⟨0x00030001#32, 1, .start, 1⟩]] := by decide
theorem test_orch_waitstop2_no_conflict :
    (txnOf (exec .orchWaitStop2 (inTxn { held with cr1 := 0x0201#16 } (txn 1 15)))).map (·.step) = some 16 := by decide
theorem test_orch_unlock :
    (nextOf (exec .orchUnlock (inTxn { held with waiters := [1] } { txn 1 17 with result := .timeout }))).map
      (fun s => ((s.bus? 1).map (fun x => (x.lock, x.waiters)), s.thread 0))
    = some (some (.held 1, []), ⟨none, some (.kind .timeout)⟩) := by decide

/-! ### CLK (L2.1) -/

/-- CCR and TRISE that a mode writes for a peripheral clock and a frequency. -/
def clkOf (i : Instr) (pclk f : Nat) : Option (Half × Half) :=
  (bus1Of (exec i { inTxn held (txn 1 7) with
    cfg := { Config.platform with pclk := pclk }, handles := [(0, { handle0 with frequency := f })] })).map
      (fun x => (x.ccr, x.trise))

theorem test_clk_std_largest : clkOf .clkStd 36000000 4395 = some (0x0FFF#16, 0x0025#16) := by decide
theorem test_clk_std_floor : clkOf .clkStd 700000 100000 = some (0x0004#16, 0x0001#16) := by decide
theorem test_clk_fast2 : clkOf .clkFast2 8000000 100001 = some (0x801A#16, 0x0003#16) := by decide
theorem test_clk_fast16_9_floor : clkOf .clkFast16_9 2000000 400000 = some (0xC001#16, 0x0001#16) := by decide
theorem test_clk_fast16_9 : clkOf .clkFast16_9 48000000 300000 = some (0xC006#16, 0x000F#16) := by decide
theorem test_clk_out_of_contract : clkOf .orchClk 36000000 4394 = none ∧ clkOf .orchClk 63000000 100000 = none
    ∧ clkOf .orchClk 36000000 400001 = none ∧ clkOf .orchClk 62999999 100000 = some (0x013A#16, 0x003F#16) := by decide

/-! ### Classifier (L2.4), interrupt request (L2.5), time-out conversion (L2.7) -/

theorem test_classify : [0x00000000#32, 0x000020FF#32, 0x00050044#32, 0x00000100#32, 0x00000200#32, 0x00000400#32,
      0x00000800#32, 0x00001000#32, 0x00004000#32, 0x00008000#32, 0x00000500#32, 0x00000600#32, 0x00000C00#32,
      0x0000D800#32, 0x0000C000#32, 0x0000DF00#32, 0x00020000#32, 0x00020400#32].map (fun v => (classify v).code)
    = [0, 0, 0, 3, 4, 5, 3, 6, 2, 7, 3, 4, 5, 3, 2, 3, 4, 5] := by decide
theorem test_irq : [(0x0000#16, 0xDFDF#16), (0x0300#16, 0x0001#16), (0x0300#16, 0x0080#16), (0x0700#16, 0x0080#16),
      (0x0700#16, 0x0040#16), (0x0400#16, 0x00C0#16), (0x0300#16, 0x0084#16), (0x0300#16, 0x0400#16),
      (0x0200#16, 0x0400#16), (0x0100#16, 0x0001#16), (0x0300#16, 0x2000#16), (0x0300#16, 0x0010#16)].map
        (fun p => irqRequest p.1 p.2)
    = [false, true, false, true, true, false, true, true, false, false, false, true] := by decide
theorem test_timeout_roundings : ({ Config.platform with timeoSec := 1, timeoMs := 5, timeoutTicks := 100 } : Config).wf = true
    ∧ ({ Config.platform with timeoSec := 1, timeoMs := 5, timeoutTicks := 101 } : Config).wf = true
    ∧ ({ Config.platform with timeoSec := 1, timeoMs := 5, timeoutTicks := 102 } : Config).wf = false := by decide

/-! ### Witnesses: each meets the hypotheses of the statement it is named after -/

/-- The context of a command: thread 0 is ready. -/
theorem ready0 {x : Bus} : CallerReady (withBus x) 0 := ⟨rfl, rfl⟩

/-- The context of an action. -/
theorem inv0 {x : Bus} {snap : Word32} {st : Stage} :
    InInvocation (invOn x snap st) 1 { x with inv := some ⟨snap, st⟩ } ⟨snap, st⟩ := ⟨rfl, rfl, rfl⟩

/-- The context of a step. -/
theorem in0 {y : Bus} {n : Nat} : InTxn (inTxn y (txn 1 n)) 0 (txn 1 n) y := ⟨rfl, rfl, rfl⟩

/-- The same on bus 2, which has a pin conflict. -/
theorem in0_bus2 {y : Bus} {n : Nat} : InTxn (inTxn y (txn 2 n)) 0 (txn 2 n) bus2 := ⟨rfl, rfl, rfl⟩

theorem nextOf_isSome {o : Out} (h : (nextOf o).isSome = true) : ∃ s, o = .next s := by
  cases o with
  | next u => exact ⟨u, rfl⟩
  | fault f => cases h
  | refused r => cases h

theorem witness_EncodeDecodeAgree : (Instr.transfer (some 4294967294) none (-2147483648)).wf = true
    ∧ (Instr.msgRTenNr 0xFFFF#16 0xFF7C#16 (some 4294967295) 2147483647).wf = true := by decide

/-- The fall-through of stage A (nothing in the snapshot) and of B (polled; a count of -1) and C; a next message with and
without the no-restart flag; no message left. -/
theorem witness_DispatchOrder :
    ((0x00030000#32).getLsbD 0 = false ∧ (0x00030000#32).getLsbD 6 = false ∧ (0x00030000#32).getLsbD 1 = false
      ∧ (0x00030000#32).getLsbD 7 = false)
    ∧ polled.mode = .polled ∧ ({ bus1 with dcnt := -1 } : Bus).dcnt < 0 ∧ (0 < ({ bus1 with dcnt := 1 } : Bus).dcnt)
    ∧ (0 < started.msgc ∧ started.msgv = some (.mem 0x1000) ∧ fetchFlags mem1 (.mem 0x1000) = .ok 0x0000#16)
    ∧ fetchFlags mem1 (.call [⟨0x50#16, 0x0080#16, none, 0⟩]) = .ok 0x0080#16
    ∧ bus1.msgc ≤ 0 := by decide

/-- Thread 0 is inside the polled loop, and the invocation it has called comes to its end. -/
def pollingNow : State :=
  { inTxn { held with inv := some ⟨0#32, .fin⟩ } { txn 1 9 with wait := .polling 0 } with
    cfg := polled, sched := [.run 0 false 0 false] }

/-- A command, a step (the last number), an action of the interrupt context, an action of the polling thread. -/
theorem witness_StepRunsDecoded :
    ((ready.thread 0).txn = none ∧ decode (.command [0x00#8, 0x01#8, 0x00#8, 0x00#8, 0x00#8]) = .ok (.openBus 1))
    ∧ ((inTxn held (txn 1 17)).bus? 1 = some held ∧ held.inv = none ∧ decode (.step (BitVec.ofNat 8 17)) = .ok .orchUnlock)
    ∧ Selects (invOn bus1 0#32 .fin) { bus1 with inv := some ⟨0#32, .fin⟩ } ⟨0#32, .fin⟩ .postLatch
    ∧ pollingNow.cfg.mode = .polled ∧ (pollingNow.thread 0).txn = some { txn 1 9 with wait := .polling 0 }
    ∧ pollingNow.bus? 1 = some { held with inv := some ⟨0#32, .fin⟩ }
    ∧ Selects pollingNow { held with inv := some ⟨0#32, .fin⟩ } ⟨0#32, .fin⟩ .postLatch :=
  ⟨⟨rfl, rfl⟩, ⟨rfl, rfl, by decide⟩, ⟨_, rfl, rfl⟩, rfl, rfl, rfl, ⟨_, rfl, rfl⟩⟩

theorem witness_PassiveWithoutInput : State.reset.sched = [] := rfl

/-- A bus whose request is asserted, and one whose line is not enabled. -/
theorem witness_InterruptTaken :
    (irqRequest 0x0300#16 0x0001#16 = true ∧ 0 < bus1.refs ∧ bus1.irqAttached = true ∧ bus1.irqEnabled = true ∧ bus1.inv = none)
    ∧ ¬(irqRequest bus2.cr2 bus2.sr1 = true ∧ 0 < bus2.refs ∧ bus2.irqAttached = true ∧ bus2.irqEnabled = true) := by decide

/-- A descriptor in memory, and the message list of a call. -/
theorem witness_FetchedMessageRuns :
    fetchMessage mem1 (.mem 0x1000) = .ok ⟨0x50#16, 0x0000#16, some 0x2000, 3⟩ ∧ started.msgv = some (.mem 0x1000)
    ∧ 1 ≤ started.msgc
    ∧ fetchMessage mem1 (.call [⟨0x50#16, 0x0080#16, none, 0⟩]) = .ok ⟨0x50#16, 0x0080#16, none, 0⟩
    ∧ isNoRestart 0x0080#16 = true := by decide

theorem witness_ClkStepRunsTheMode : InTxn (inTxn held (txn 1 7)) 0 (txn 1 7) held
    ∧ (inTxn held (txn 1 7)).handle? 0 = some handle0 ∧ 0 < handle0.frequency ∧ handle0.frequency ≤ 100000
    ∧ ∃ u, exec .clkStd (inTxn held (txn 1 7)) = .next u :=
  ⟨in0, rfl, by decide, by decide, nextOf_isSome (by decide)⟩

/-- The first and the last bus. -/
theorem witness_OpenResult : CallerReady ready 0 ∧ 2 ≤ ready.cfg.nbus ∧ ready.cfg.pclkMinOpen ≤ ready.cfg.pclk
    ∧ ready.bus? 1 = some bus1 ∧ ready.bus? 2 = some bus2 := ⟨ready0, by decide, by decide, rfl, rfl⟩

theorem witness_CloseResult : CallerReady ready 0 ∧ ready.handle? 0 = some handle0 ∧ ready.bus? handle0.bus = some bus1
    ∧ 1 ≤ bus1.refs := ⟨ready0, rfl, rfl, by decide⟩

theorem witness_ConfigureResult : CallerReady ready 0 ∧ ready.handle? 0 = some handle0 := ⟨ready0, rfl⟩

/-- The bus numbers and the code next to the valid ones. -/
theorem witness_InvalidArgumentChangesNothing : CallerReady ready 0 ∧ ready.handle? 0 = some handle0
    ∧ (0 : Int) < 1 ∧ (ready.cfg.nbus : Int) < 3 ∧ 8 ≤ (0x08#8 : Byte).toNat := ⟨ready0, rfl, by decide, by decide, by decide⟩

theorem witness_SingleTransactionResult : CallerReady ready 0 ∧ ready.handle? 0 = some handle0
    ∧ ((0 : Nat) = 0 ∨ (none : Option Nat) ≠ none) ∧ ((1 : Nat) = 0 ∨ some 0x2000 ≠ none) := ⟨ready0, rfl, by decide, by decide⟩

/-- Read lengths 1, -1 and 0. -/
theorem witness_WriteReadResult : CallerReady ready 0 ∧ ready.handle? 0 = some handle0
    ∧ ((0 : Nat) = 0 ∨ (none : Option Nat) ≠ none) ∧ ((1 : Int) = 0 ∨ some 0x3000 ≠ none)
    ∧ ((-1 : Int) = 0 ∨ some 0x3000 ≠ none) ∧ ((0 : Int) = 0 ∨ (none : Option Nat) ≠ none) :=
  ⟨ready0, rfl, by decide, by decide, by decide, by decide⟩

theorem witness_MisuseStops : CallerReady ready 0 ∧ ready.handle? 0 = some handle0 ∧ ready.handle? 1 = none
    ∧ faultOf (exec (.write (some 0) none 1) ready) = some .assertion
    ∧ faultOf (exec (.write (some 0) none (-1)) ready) = some .badDescriptor
    ∧ faultOf (exec (.writeRead (some 0) none (-1) none 0) ready) = some .badDescriptor
    ∧ faultOf (exec (.writeRead (some 0) none (-1) none 1) ready) = some .assertion :=
  ⟨ready0, rfl, rfl, by decide, by decide, by decide, by decide⟩

theorem witness_CommandFrame : CallerReady ready 0 ∧ formatOf (.openBus 1) = .h ∧ ∃ u, exec (.openBus 1) ready = .next u :=
  ⟨ready0, rfl, nextOf_isSome (by decide)⟩

theorem witness_MessageResult :
    InInvocation (invOn started 0x00030001#32 .a) 1 { started with inv := some ⟨0x00030001#32, .a⟩ } ⟨0x00030001#32, .a⟩
    ∧ InInvocation (invOn started 0x84#32 .sub) 1 { started with inv := some ⟨0x84#32, .sub⟩ } ⟨0x84#32, .sub⟩ := ⟨inv0, inv0⟩

theorem witness_EvStartResult :
    InInvocation (invOn started 0x1#32 .a) 1 { started with inv := some ⟨0x1#32, .a⟩ } ⟨0x1#32, .a⟩
    ∧ started.msgv = some (.mem 0x1000) ∧ 1 ≤ started.msgc ∧ fetchMessage mem1 (.mem 0x1000) = .ok ⟨0x50#16, 0#16, some 0x2000, 3⟩
    ∧ bus1.msgv = none := ⟨inv0, rfl, by decide, by decide, rfl⟩

/-- The last byte, no byte left, and a Null pointer. -/
theorem witness_EvTxResult :
    InInvocation (invOn bus1 0x80#32 .a) 1 { bus1 with inv := some ⟨0x80#32, .a⟩ } ⟨0x80#32, .a⟩
    ∧ memRead mem1 0x2000 = .ok 0x01#8 ∧ bus1.dcnt < 1 ∧ bus1.ptr = none
    ∧ (bus1Of (act .evTx { bus1 with dcnt := 1, ptr := some 0x2000 } 0x80#32 .a)).map (·.dcnt) = some 0
    ∧ faultOf (act .evTx { bus1 with dcnt := 1 } 0x80#32 .a) = some .nullBuffer :=
  ⟨inv0, by decide, by decide, rfl, by decide, by decide⟩

theorem witness_EvRxResult :
    InInvocation (invOn bus1 0x40#32 .a) 1 { bus1 with inv := some ⟨0x40#32, .a⟩ } ⟨0x40#32, .a⟩ ∧ bus1.dcnt < 1
    ∧ (bus1Of (act .evRx { bus1 with dcnt := 1, ptr := some 0x3000 } 0x40#32 .a)).map (·.dcnt) = some 0
    ∧ faultOf (act .evRx { bus1 with dcnt := 1 } 0x40#32 .a) = some .nullBuffer :=
  ⟨inv0, by decide, by decide, by decide⟩

theorem witness_BufferInterruptResult :
    InInvocation (invOn bus1 0x2#32 .a) 1 { bus1 with inv := some ⟨0x2#32, .a⟩ } ⟨0x2#32, .a⟩
    ∧ InInvocation (invOn bus1 0x2#32 .b) 1 { bus1 with inv := some ⟨0x2#32, .b⟩ } ⟨0x2#32, .b⟩
    ∧ (invOn bus1 0x2#32 .a).cfg.mode = .interrupt ∧ ({ invOn bus1 0x2#32 .a with cfg := polled }).cfg.mode = .polled :=
  ⟨inv0, inv0, rfl, rfl⟩

/-- BTF with no byte left; then a next message, and none left. -/
theorem witness_EndOfMessageResult :
    InInvocation (invOn bus1 0x4#32 .c) 1 { bus1 with inv := some ⟨0x4#32, .c⟩ } ⟨0x4#32, .c⟩
    ∧ InInvocation (invOn started 0x4#32 .sub) 1 { started with inv := some ⟨0x4#32, .sub⟩ } ⟨0x4#32, .sub⟩
    ∧ 0 < started.msgc ∧ started.msgv = some (.mem 0x1000) ∧ fetchFlags mem1 (.mem 0x1000) = .ok 0x0000#16
    ∧ InInvocation (invOn bus1 0x4#32 .sub) 1 { bus1 with inv := some ⟨0x4#32, .sub⟩ } ⟨0x4#32, .sub⟩ ∧ bus1.msgc ≤ 0 :=
  ⟨inv0, inv0, by decide, rfl, by decide, inv0, by decide⟩

theorem witness_SpliceResult :
    InInvocation (invOn started 0x4#32 .sub) 1 { started with inv := some ⟨0x4#32, .sub⟩ } ⟨0x4#32, .sub⟩
    ∧ started.msgv = some (.mem 0x1000) ∧ fetchMessage mem1 (.mem 0x1000) = .ok ⟨0x50#16, 0#16, some 0x2000, 3⟩ :=
  ⟨inv0, rfl, by decide⟩

theorem witness_StopResult :
    InInvocation (invOn started 0x4#32 .sub) 1 { started with inv := some ⟨0x4#32, .sub⟩ } ⟨0x4#32, .sub⟩ := inv0

theorem witness_ErrorAndLatchResult :
    InInvocation (invOn bus1 0x400#32 .d) 1 { bus1 with inv := some ⟨0x400#32, .d⟩ } ⟨0x400#32, .d⟩
    ∧ InInvocation (invOn bus1 0x400#32 .fin) 1 { bus1 with inv := some ⟨0x400#32, .fin⟩ } ⟨0x400#32, .fin⟩ := ⟨inv0, inv0⟩

theorem witness_SequencerFrame : isSequencer .postErr = true
    ∧ InInvocation (invOn bus1 0x400#32 .d) 1 { bus1 with inv := some ⟨0x400#32, .d⟩ } ⟨0x400#32, .d⟩
    ∧ ∃ u, exec .postErr (invOn bus1 0x400#32 .d) = .next u := ⟨rfl, inv0, nextOf_isSome (by decide)⟩

/-- A free lock, a lock the thread holds, and one that another thread holds. -/
theorem witness_LockResult : InTxn (inTxn bus1 (txn 1 1)) 0 (txn 1 1) bus1 ∧ InTxn (inTxn held (txn 1 1)) 0 (txn 1 1) held
    ∧ bus1.lock = .free ∧ held.lock = .held 0 ∧ (1 : Nat) ≠ 0
    ∧ InTxn (inTxn { bus1 with lock := .held 1 } (txn 1 1)) 0 (txn 1 1) { bus1 with lock := .held 1 } :=
  ⟨in0, in0, rfl, rfl, by decide, in0⟩

theorem witness_PinConflictResult : InTxn (inTxn held (txn 1 2)) 0 (txn 1 2) held
    ∧ InTxn (inTxn held (txn 2 2)) 0 (txn 2 2) bus2
    ∧ Config.platform.pinConflict 1 = false ∧ Config.platform.pinConflict 2 = true := ⟨in0, in0_bus2, by decide, by decide⟩

/-- STOP clear, STOP set before the time-out, and STOP set at it. -/
theorem witness_WaitStopResult : InTxn (inTxn held (txn 1 3)) 0 (txn 1 3) held ∧ held.cr1 &&& 0x0200#16 = 0#16
    ∧ InTxn (inTxn { held with cr1 := 0x0201#16 } (txn 1 3)) 0 (txn 1 3) { held with cr1 := 0x0201#16 }
    ∧ (0x0201#16 : Half) &&& 0x0200#16 ≠ 0#16 ∧ 9 - 0 < Config.platform.stopWaitTicks ∧ Config.platform.stopWaitTicks ≤ 10 - 0
    ∧ Config.platform.pinConflict 2 = true := ⟨in0, by decide, in0, by decide, by decide, by decide, by decide⟩

theorem witness_SetUpResult : InTxn (inTxn held (txn 1 4)) 0 (txn 1 4) held := in0

theorem witness_WaitBegins : InTxn (inTxn held (txn 1 9)) 0 (txn 1 9) held ∧ (txn 1 9).wait = .fresh
    ∧ Config.platform.mode = .interrupt ∧ polled.mode = .polled := ⟨in0, rfl, rfl, rfl⟩

/-- The wait at its deadline, 50, and just before it; with a post and without; Done and Waiting. -/
theorem witness_WaitAnswers (y : Bus) :
    InTxn (inTxn y { txn 1 9 with wait := .blocked 50 }) 0 { txn 1 9 with wait := .blocked 50 } y
    ∧ (50 : Nat) ≤ 50 ∧ (49 : Nat) < 50 ∧ ({ held with hs := .done, sig := 1 } : Bus).hs = .done
    ∧ 0 < ({ held with hs := .waiting, sig := 1 } : Bus).sig ∧ held.sig = 0 :=
  ⟨⟨rfl, rfl, rfl⟩, by decide, by decide, rfl, by decide, rfl⟩

theorem witness_PollAnswers (y : Bus) :
    InTxn { inTxn y { txn 1 9 with wait := .polling 0 } with cfg := polled } 0 { txn 1 9 with wait := .polling 0 } y
    ∧ polled.timeoutTicks ≤ 50 - 0 ∧ 49 - 0 < polled.timeoutTicks := ⟨⟨rfl, rfl, rfl⟩, by decide, by decide⟩

theorem witness_TimeoutResult : InTxn (inTxn held (txn 1 10)) 0 (txn 1 10) held := in0
theorem witness_ClassifyResult : InTxn (inTxn held (txn 1 11)) 0 (txn 1 11) held := in0
theorem witness_DumpResult : InTxn (inTxn held (txn 1 14)) 0 (txn 1 14) held := in0

theorem witness_UnlockResult : InTxn (inTxn held (txn 1 17)) 0 (txn 1 17) held ∧ held.waiters = []
    ∧ InTxn (inTxn { held with waiters := [1, 2] } (txn 1 17)) 0 (txn 1 17) { held with waiters := [1, 2] }
    ∧ 2 ∈ [1, 2] := ⟨in0, rfl, in0, by decide⟩

theorem witness_OrchestratorFrame : isOrchestrator .orchWait = true ∧ InTxn (inTxn held (txn 1 9)) 0 (txn 1 9) held
    ∧ ∃ u, exec .orchWait (inTxn held (txn 1 9)) = .next u := ⟨rfl, in0, nextOf_isSome (by decide)⟩

/-- 100 000 Hz, 100 001 Hz and 400 000 Hz; the divider 4095 and the rise time 63. -/
theorem witness_ClkModeResult : InTxn (inTxn held (txn 1 7)) 0 (txn 1 7) held
    ∧ (inTxn held (txn 1 7)).handle? 0 = some handle0 ∧ handle0.frequency = 100000
    ∧ max 4 (36000000 / (2 * 4395)) = 4095 ∧ 62999999 / 1000000 + 1 = 63
    ∧ max 1 (36000000 / (3 * 100001)) ≤ 4095 ∧ max 1 (36000000 / (25 * 400000)) = 3 :=
  ⟨in0, rfl, rfl, by decide, by decide, by decide, by decide⟩

/-- Step 7 for a platform's clock and fast sub-mode, and a frequency. -/
def clkFault (pclk f : Nat) (d : FastDuty) : Option Fault :=
  faultOf (exec .orchClk { inTxn held (txn 1 7) with
    cfg := { Config.platform with pclk := pclk, fastDuty := d }, handles := [(0, { handle0 with frequency := f })] })

/-- 0 and 400 001 Hz; the divider 4096 in each mode; the rise time 64 in each mode. -/
theorem witness_ClkOutOfContract : InTxn (inTxn held (txn 1 7)) 0 (txn 1 7) held
    ∧ (inTxn held (txn 1 7)).handle? 0 = some handle0
    ∧ [clkFault 36000000 0 .duty2, clkFault 36000000 400001 .duty2, clkFault 36000000 4394 .duty2,
        clkFault 63000000 100000 .duty2, clkFault 210000000 400000 .duty2, clkFault 1228900000 100001 .duty2,
        clkFault 10240110000 100001 .duty16_9] = List.replicate 7 (some .clkOutOfContract) :=
  ⟨in0, rfl, by decide⟩

theorem witness_ClkIdempotent : formatOf .clkStd = .k ∧ InTxn (inTxn held (txn 1 7)) 0 (txn 1 7) held
    ∧ ∃ u, exec .clkStd (inTxn held (txn 1 7)) = .next u := ⟨rfl, in0, nextOf_isSome (by decide)⟩

/-- A snapshot for each class. -/
theorem witness_ClassifierPriority : (0x00000100#32).getLsbD 8 = true ∧ (0x00000200#32).getLsbD 8 = false
    ∧ 0x00000C00#32 &&& 0x00000300#32 = 0#32 ∧ 0x0000D800#32 &&& 0x00000700#32 = 0#32
    ∧ 0x00001000#32 &&& 0x00000F00#32 = 0#32 ∧ 0x0000C000#32 &&& 0x00001F00#32 = 0#32
    ∧ 0x00008000#32 &&& 0x00005F00#32 = 0#32 ∧ 0x00020000#32 &&& 0x0000DF00#32 = 0#32 := by decide

theorem witness_RegisterPort : (8 : Nat) ≠ 16 ∧ (0x22 % 4 ≠ 0 ∨ 0x20 < 0x22) ∧ 0x20 < 0x24 ∧ (1#16 : Half) ≠ 0#16
    ∧ bus1.portRead 0x20 16 = .ok 0x0002#16 ∧ bus1.portRead 0x24 16 = .error .unmappedRegister := by decide

theorem witness_LineEngineLiberties : ready.bus? 1 = some bus1 ∧ LineEngineMay bus1 { bus1 with sr1 := 0xFFFF#16 } :=
  ⟨rfl, rfl, by decide, by decide⟩

/-- Thread 0 waits in step 9 on bus 1, its bus armed; the next input takes the interrupt. -/
def waiting : State :=
  { inTxn { held with hs := .waiting, cr2 := 0x0300#16, sr1 := 0x0001#16 } { txn 1 9 with wait := .blocked 50 } with
    mem := mem1, sched := [.irq 1] }

theorem waiting_bus {b : Nat} {x : Bus} (h : waiting.bus? b = some x) :
    x = { held with hs := .waiting, cr2 := 0x0300#16, sr1 := 0x0001#16 } ∧ b = 1 ∨ x = bus2 := by
  simp only [State.bus?, waiting, inTxn, withBus, kget] at h
  split at h
  · next e => cases h; exact .inl ⟨rfl, e.symm⟩
  · split at h
    · cases h; exact .inr rfl
    · cases h

theorem waiting_thread {t : Nat} {x : Txn} (h : (waiting.thread t).txn = some x) :
    t = 0 ∧ x = { txn 1 9 with wait := .blocked 50 } := by
  simp only [State.thread, waiting, inTxn, kget] at h
  split at h
  · next e => cases h; exact ⟨e.symm, rfl⟩
  · cases h

theorem waiting_on : WaiterOn waiting 1 := ⟨0, { txn 1 9 with wait := .blocked 50 }, rfl, rfl, rfl, by decide⟩

theorem waiting_steps : ∃ u, step waiting = .next u := nextOf_isSome (by decide)

theorem witness_RegistersStayLegal : RegistersLegal waiting ∧ ∃ u, step waiting = .next u := by
  refine ⟨fun b x h => ?_, waiting_steps⟩
  rcases waiting_bus h with ⟨rfl, _⟩ | rfl <;> decide

theorem witness_MemoryStaysCanonical : MemoryCanonical waiting ∧ ∃ u, step waiting = .next u :=
  ⟨by unfold MemoryCanonical; decide, waiting_steps⟩

theorem waiting_coherent : Coherent waiting := by
  refine ⟨fun t x y ht hy _ => ?_, fun b y hy => ?_⟩
  · obtain ⟨rfl, rfl⟩ := waiting_thread ht
    cases hy; rfl
  · rcases waiting_bus hy with ⟨rfl, rfl⟩ | rfl
    · exact ⟨fun _ => waiting_on, fun _ => waiting_on, fun _ => ⟨rfl, waiting_on⟩⟩
    · exact ⟨fun h => absurd rfl h, fun h => absurd rfl h, fun h => absurd (by decide) h⟩

theorem witness_StaysCoherent : Coherent waiting ∧ ∃ u, step waiting = .next u := ⟨waiting_coherent, waiting_steps⟩

theorem waiting_posted : DoneIsPosted waiting := by
  intro _ b y hy hd
  rcases waiting_bus hy with ⟨rfl, _⟩ | rfl <;> cases hd

theorem witness_DoneStaysPosted : DoneIsPosted waiting ∧ ∃ u, step waiting = .next u := ⟨waiting_posted, waiting_steps⟩

/-- The wait at its deadline: it ends TimedOut and step 10 comes next. -/
def expired : State := { waiting with now := 50 }

theorem witness_TimedOutWasNotDone : DoneIsPosted expired ∧ expired.cfg.mode = .interrupt
    ∧ (txnOf (exec .orchWait expired)).map (·.step) = some 10 ∧ ∃ u, exec .orchWait expired = .next u :=
  ⟨waiting_posted, rfl, by decide, nextOf_isSome (by decide)⟩

theorem witness_PoweredStaysEnabled : PoweredIsEnabled waiting ∧ ∃ u, step waiting = .next u := by
  refine ⟨fun b x h => ?_, waiting_steps⟩
  rcases waiting_bus h with ⟨rfl, _⟩ | rfl <;> decide

theorem witness_RefsStayCounted : RefsCountHandles waiting ∧ ∃ u, step waiting = .next u := by
  refine ⟨⟨by decide, by decide, fun b y hy => ?_⟩, waiting_steps⟩
  simp only [State.bus?, waiting, inTxn, withBus, kget] at hy
  split at hy
  · next e => cases hy; subst e; decide
  · split at hy
    · next e => cases hy; subst e; decide
    · cases hy

/-- Thread 0 holds the lock of bus 1, where thread 1 comes to step 1. -/
def contended : State :=
  { waiting with threads := waiting.threads ++ [(1, ⟨some (txn 1 1), none⟩)], sched := [.run 1 false 0 false] }

theorem witness_LockExcludes : Coherent contended ∧ (contended.thread 1).txn = some (txn 1 1)
    ∧ (∃ y, contended.bus? 1 = some y ∧ y.lock = .held 0) ∧ ∃ u, step contended = .next u := by
  refine ⟨⟨fun t x y ht hy h2 => ?_, fun b y hy => ?_⟩, rfl, ⟨_, rfl, rfl⟩, nextOf_isSome (by decide)⟩
  · simp only [State.thread, contended, waiting, inTxn, List.cons_append, List.nil_append, kget] at ht
    split at ht
    · next e => cases ht; subst e; cases hy; rfl
    · split at ht
      · cases ht; exact absurd h2 (by decide)
      · cases ht
  · have on : WaiterOn contended 1 := ⟨0, { txn 1 9 with wait := .blocked 50 }, rfl, rfl, rfl, by decide⟩
    rcases waiting_bus (b := b) (x := y) hy with ⟨rfl, rfl⟩ | rfl
    · exact ⟨fun _ => on, fun _ => on, fun _ => ⟨rfl, on⟩⟩
    · exact ⟨fun h => absurd rfl h, fun h => absurd rfl h, fun h => absurd (by decide) h⟩

theorem witness_BusesAreIndependent :
    ((contended.thread 1).txn = some (txn 1 1) ∧ ∃ u, step contended = .next u) ∧ waiting.sched = [.irq 1]
    ∧ ∃ u, step waiting = .next u := ⟨⟨rfl, nextOf_isSome (by decide)⟩, rfl, waiting_steps⟩

theorem witness_PlatformIsFixed : ∃ u, step waiting = .next u := waiting_steps

/-- The twelve bytes of a descriptor with a length field. -/
def descriptorBytes (l0 l1 l2 l3 : Byte) : List Byte :=
  [0x50#8, 0x00#8, 0x81#8, 0x00#8, 0x00#8, 0x30#8, 0x00#8, 0x00#8, l0, l1, l2, l3]

def longest : List Byte := descriptorBytes 0xFF#8 0xFF#8 0xFF#8 0x7F#8
def negative : List Byte := descriptorBytes 0x00#8 0x00#8 0x00#8 0x80#8

/-- The largest length and the next one, which is negative; a misaligned pointer; a descriptor that lacks its last byte. -/
theorem witness_DescriptorFetch :
    (∀ k, k < 12 → memRead (writeBytes [] 0x1000 longest) (0x1000 + k) = .ok (longest.getD k 0#8))
    ∧ (∀ k, k < 12 → memRead (writeBytes [] 0x1000 negative) (0x1000 + k) = .ok (negative.getD k 0#8))
    ∧ 255 + 256 * 255 + 65536 * 255 + 16777216 * 127 < 2147483648 ∧ 2147483648 ≤ 16777216 * 128
    ∧ 0x1000 % 4 = 0 ∧ 0x1002 % 4 ≠ 0
    ∧ memRead (writeBytes [] 0x1000 (longest.take 11)) (0x1000 + 11) = .error .unwrittenState
    ∧ memRead [] (0x1000 + 2) = .error .unwrittenState := by decide

/-- EV.START and the splice on a message that cannot be fetched, and a step that cannot read the flags of the next one. -/
theorem witness_DescriptorFetch_stops :
    InInvocation { invOn started 0x4#32 .sub with mem := [] } 1 { started with inv := some ⟨0x4#32, .sub⟩ } ⟨0x4#32, .sub⟩
    ∧ started.msgv = some (.mem 0x1000) ∧ 1 ≤ started.msgc
    ∧ fetchMessage [] (.mem 0x1000) = .error .unwrittenState ∧ fetchFlags [] (.mem 0x1000) = .error .unwrittenState
    ∧ ({ invOn started 0x4#32 .sub with mem := [], sched := [.irq 1] }).cfg.mode = .interrupt :=
  ⟨⟨rfl, rfl, rfl⟩, rfl, by decide, by decide, by decide, rfl⟩

end Sys2Proof.Tests
end

/-! SUPPORT. The proofs about TSM (41_transfer_state_machine.md). First what the shared definitions say: the bits of the
flags and of the registers, the dispatch value and the action it selects, and each action's effect in an invocation. The
statements of the family are settled from these. -/

namespace Sys2Proof.Machine

variable {s : State} {b : Nat} {x : Bus} {v : Invocation}

/-! ### Bits -/

/-- `RegModify16` that clears nothing sets the bits of its mask (R73). -/
@[simp] theorem modifyBits_set (w m : Half) : modifyBits w 0x0000#16 m = w ||| m :=
  congrArg (· ||| m) BitVec.and_allOnes

/-- `RegModify16` that sets nothing clears the bits of its mask (R73). -/
@[simp] theorem modifyBits_clear (w m : Half) : modifyBits w m 0x0000#16 = w &&& ~~~m := by
  simp [modifyBits]

theorem anyBit_iff {w : Nat} {a m : BitVec w} : anyBit a m = true ↔ a &&& m ≠ 0#w := by
  simp [anyBit]

theorem anyBit_eq_false_iff {w : Nat} {a m : BitVec w} : anyBit a m = false ↔ a &&& m = 0#w := by
  simp [anyBit]

theorem anyBit_or {w : Nat} (a m n : BitVec w) : anyBit a (m ||| n) = (anyBit a m || anyBit a n) := by
  rw [Bool.eq_iff_iff, Bool.or_eq_true, anyBit_iff, anyBit_iff, anyBit_iff, BitVec.and_or_distrib_left, Ne,
    BitVec.or_eq_zero_iff]
  tauto

/-- A mask of one bit tests that bit. -/
theorem anyBit_twoPow {w i : Nat} (a : BitVec w) (h : i < w) : anyBit a (BitVec.twoPow w i) = a.getLsbD i := by
  have hne : BitVec.twoPow w i ≠ 0#w := fun e => by simpa [h] using congrArg (BitVec.getLsbD · i) e
  cases hi : a.getLsbD i <;> simp [anyBit, BitVec.and_twoPow, hi, hne]

@[simp] theorem anyBit_S_SB (a : Word32) : anyBit a S_SB = a.getLsbD 0 := anyBit_twoPow a (i := 0) (by decide)
@[simp] theorem anyBit_S_ADDR (a : Word32) : anyBit a S_ADDR = a.getLsbD 1 := anyBit_twoPow a (i := 1) (by decide)
@[simp] theorem anyBit_S_BTF (a : Word32) : anyBit a S_BTF = a.getLsbD 2 := anyBit_twoPow a (i := 2) (by decide)
@[simp] theorem anyBit_S_RXNE (a : Word32) : anyBit a S_RXNE = a.getLsbD 6 := anyBit_twoPow a (i := 6) (by decide)
@[simp] theorem anyBit_S_TXE (a : Word32) : anyBit a S_TXE = a.getLsbD 7 := anyBit_twoPow a (i := 7) (by decide)
@[simp] theorem anyBit_M_READ (f : Half) : anyBit f M_READ = f.getLsbD 0 := anyBit_twoPow f (i := 0) (by decide)

@[simp] theorem State.interruptMode_iff : s.interruptMode = true ↔ s.cfg.mode = .interrupt := by
  simp [State.interruptMode]

/-! ### Dispatch (30_encoding.md R105) -/

/-- The dispatch value of an invocation, given whether the next message carries the no-restart flag. -/
def dispatchValue (s : State) (x : Bus) (v : Invocation) (noRestart : Bool) : DispatchKey :=
  ⟨v.stage, s.interruptMode, v.snap, x.flags, x.dcnt, x.msgc, x.msgv.isNone, noRestart⟩

/-- Unless a next message decides the branch of POST.BTF, no descriptor is read. -/
theorem actionKey_without_next (h : ¬(v.stage = .sub ∧ 0 < x.msgc)) :
    actionKey s x v = .ok (dispatchValue s x v false) := by
  simp [actionKey, h, dispatchValue]

theorem actionKey_of_next {p : MsgPtr} {fl : Half} (hs : v.stage = .sub) (hc : 0 < x.msgc) (hp : x.msgv = some p)
    (hf : fetchFlags s.mem p = .ok fl) : actionKey s x v = .ok (dispatchValue s x v (isNoRestart fl)) := by
  simp [actionKey, hs, hc, hp, fetchCursor, hf, dispatchValue]

theorem eq_dispatchValue_of_actionKey {k : DispatchKey} (h : actionKey s x v = .ok k) :
    ∃ noRestart, k = dispatchValue s x v noRestart := by
  unfold actionKey at h
  dsimp only at h
  split at h
  · split at h <;> cases h
    exact ⟨_, rfl⟩
  · cases h
    exact ⟨false, rfl⟩

theorem selects_iff_of_actionKey {k : DispatchKey} {i : Instr} (h : actionKey s x v = .ok k) :
    Selects s x v i ↔ decodeAction k = i := by
  simp [Selects, h, decode]

theorem dispatchD_eq_postErr {k : DispatchKey} : dispatchD k = .postErr ↔ anyBit k.snap S_ERRORS = true := by
  unfold dispatchD; split <;> simp [*]

theorem dispatchD_eq_postLatch {k : DispatchKey} : dispatchD k = .postLatch ↔ anyBit k.snap S_ERRORS = false := by
  unfold dispatchD; split <;> simp_all

/-- Which actions stage D and the end can select. -/
theorem dispatchD_mem (k : DispatchKey) : dispatchD k ∈ [Instr.postErr, .postLatch] := by
  unfold dispatchD; split <;> simp

/-- Which actions stage C and what follows it can select. -/
theorem dispatchC_mem (k : DispatchKey) : dispatchC k ∈ [Instr.postBtf, .postErr, .postLatch] := by
  unfold dispatchC
  split
  · simp
  · exact List.mem_cons_of_mem _ (dispatchD_mem k)

/-- Which actions stage B and what follows it can select. -/
theorem dispatchB_mem (k : DispatchKey) :
    dispatchB k ∈ [Instr.postBufEn, .postBufDis, .postBtf, .postErr, .postLatch] := by
  unfold dispatchB
  split
  · simp
  · split
    · simp
    · exact List.mem_cons_of_mem _ (List.mem_cons_of_mem _ (dispatchC_mem k))

theorem dispatchC_eq_postBtf {k : DispatchKey} :
    dispatchC k = .postBtf ↔ k.dcnt ≤ 0 ∧ k.snap.getLsbD 2 = true := by
  have hd : dispatchD k ≠ .postBtf := fun e => by simpa [e] using dispatchD_mem k
  unfold dispatchC
  split <;> simp_all

theorem dispatchB_eq_postBufEn {k : DispatchKey} :
    dispatchB k = .postBufEn ↔ k.interrupt = true ∧ 0 < k.dcnt := by
  have hc : dispatchC k ≠ .postBufEn := fun e => by simpa [e] using dispatchC_mem k
  unfold dispatchB
  split
  · simp_all
  · split <;> simp_all

theorem dispatchB_eq_postBufDis {k : DispatchKey} :
    dispatchB k = .postBufDis ↔ k.interrupt = true ∧ k.dcnt = 0 := by
  have hc : dispatchC k ≠ .postBufDis := fun e => by simpa [e] using dispatchC_mem k
  unfold dispatchB
  split
  · simp_all; omega
  · split <;> simp_all

/-- An action of stage A is not selected by a later stage. -/
theorem dispatchB_ne_stageA (k : DispatchKey) : dispatchB k ≠ .evStart ∧ dispatchB k ≠ .evTx ∧
    dispatchB k ≠ .evRxAddr ∧ dispatchB k ≠ .evRx := by
  refine ⟨?_, ?_, ?_, ?_⟩ <;> exact fun e => by simpa [e] using dispatchB_mem k

theorem dispatchA_eq_evStart {k : DispatchKey} : dispatchA k = .evStart ↔ k.snap.getLsbD 0 = true := by
  obtain ⟨hb, -⟩ := dispatchB_ne_stageA k
  unfold dispatchA
  split_ifs <;> simp_all

theorem dispatchA_eq_evTx {k : DispatchKey} : dispatchA k = .evTx ↔
    k.snap.getLsbD 0 = false ∧ k.flags.getLsbD 0 = false ∧ (k.snap.getLsbD 1 = true ∨ k.snap.getLsbD 7 = true) := by
  obtain ⟨-, hb, -⟩ := dispatchB_ne_stageA k
  unfold dispatchA
  split_ifs <;> simp_all [anyBit_or]

theorem dispatchA_eq_evRxAddr {k : DispatchKey} : dispatchA k = .evRxAddr ↔
    k.snap.getLsbD 0 = false ∧ k.flags.getLsbD 0 = true ∧ k.snap.getLsbD 1 = true := by
  obtain ⟨-, -, hb, -⟩ := dispatchB_ne_stageA k
  unfold dispatchA
  split_ifs <;> simp_all

/-- The last of the first-match chain of stage A: RXNE, when the three before it do not match. -/
theorem dispatchA_eq_evRx {k : DispatchKey} : dispatchA k = .evRx ↔ k.snap.getLsbD 6 = true ∧
    dispatchA k ≠ .evStart ∧ dispatchA k ≠ .evTx ∧ dispatchA k ≠ .evRxAddr := by
  obtain ⟨h1, h2, h3, h4⟩ := dispatchB_ne_stageA k
  unfold dispatchA
  split_ifs <;> simp_all

/-! ### What an invocation selects, by its stage -/

/-- Outside the branch of POST.BTF the stage, the snapshot and the cursor alone select the action. -/
theorem selects_of_ne_sub {i : Instr} (h : v.stage ≠ .sub) :
    Selects s x v i ↔ decodeAction (dispatchValue s x v false) = i :=
  selects_iff_of_actionKey (actionKey_without_next fun ⟨hs, _⟩ => h hs)

theorem selects_stageA {i : Instr} (h : v.stage = .a) :
    Selects s x v i ↔ dispatchA (dispatchValue s x v false) = i := by
  rw [selects_of_ne_sub (by simp [h]), decodeAction, dispatchValue, h]

theorem selects_stageB {i : Instr} (h : v.stage = .b) :
    Selects s x v i ↔ dispatchB (dispatchValue s x v false) = i := by
  rw [selects_of_ne_sub (by simp [h]), decodeAction, dispatchValue, h]

theorem selects_stageC {i : Instr} (h : v.stage = .c) :
    Selects s x v i ↔ dispatchC (dispatchValue s x v false) = i := by
  rw [selects_of_ne_sub (by simp [h]), decodeAction, dispatchValue, h]

theorem selects_stageD {i : Instr} (h : v.stage = .d) :
    Selects s x v i ↔ dispatchD (dispatchValue s x v false) = i := by
  rw [selects_of_ne_sub (by simp [h]), decodeAction, dispatchValue, h]

theorem selects_fin {i : Instr} (h : v.stage = .fin) : Selects s x v i ↔ i = .postLatch := by
  rw [selects_of_ne_sub (by simp [h]), decodeAction, dispatchValue, h, eq_comm]

/-- With a next message the branch of POST.BTF is chosen by its no-restart flag. -/
theorem selects_next {p : MsgPtr} {fl : Half} {i : Instr} (hs : v.stage = .sub) (hc : 0 < x.msgc)
    (hp : x.msgv = some p) (hf : fetchFlags s.mem p = .ok fl) :
    Selects s x v i ↔ i = if fl &&& 0x0080#16 ≠ 0#16 then .postBtfSplice else .postBtfRestart := by
  rw [selects_iff_of_actionKey (actionKey_of_next hs hc hp hf)]
  simp [decodeAction, dispatchSub, dispatchValue, hs, hc, isNoRestart, anyBit, M_NORESTART, eq_comm (b := i)]

/-- With no next message the branch of POST.BTF is chosen by whether a list is installed. -/
theorem selects_last {i : Instr} (hs : v.stage = .sub) (hc : x.msgc ≤ 0) :
    Selects s x v i ↔ i = if x.msgv ≠ none then .postBtfStop else .postBtfNone := by
  rw [selects_iff_of_actionKey (actionKey_without_next (by simp [hc]))]
  simp [decodeAction, dispatchSub, dispatchValue, hs, Int.not_lt.mpr hc, eq_comm (b := i)]

/-- While a next message waits, POST.BTF does not stop, whether or not that message's flags can be read. -/
theorem not_selects_stop (hs : v.stage = .sub) (hc : 0 < x.msgc) : ¬Selects s x v .postBtfStop := by
  rintro ⟨k, hk, hd⟩
  obtain ⟨noRestart, rfl⟩ := eq_dispatchValue_of_actionKey hk
  cases noRestart <;> simp [decode, decodeAction, dispatchSub, dispatchValue, hs, hc] at hd

/-! ### The cursor -/

theorem readBytes_succ_ok {mem : List Host.Cell} {a n : Nat} {bs : List Byte} (h : readBytes mem a (n + 1) = .ok bs) :
    ∃ w ws, memRead mem a = .ok w ∧ readBytes mem (a + 1) n = .ok ws ∧ bs = w :: ws := by
  unfold readBytes at h
  split at h
  · cases h
  · next w hw =>
    split at h
    · cases h
    · next ws hws => cases h; exact ⟨w, ws, hw, hws, rfl⟩

theorem descriptorOf_flags {a0 a1 f0 f1 : Byte} {r : List Byte} {m : Message}
    (h : descriptorOf (a0 :: a1 :: f0 :: f1 :: r) = .ok m) : m.flags = BitVec.ofNat 16 (fromLe16 f0 f1) := by
  unfold descriptorOf at h
  split at h
  · next heq =>
    cases heq
    dsimp only at h
    split at h
    · cases h; rfl
    · cases h
  · cases h

/-- A descriptor that can be fetched has its flags read ahead: bytes 2 and 3 of its twelve (20_memory.md R77). -/
theorem fetchFlags_of_fetchMessage {mem : List Host.Cell} {p : MsgPtr} {m : Message}
    (h : fetchMessage mem p = .ok m) : fetchFlags mem p = .ok m.flags := by
  match p with
  | .call [] => cases h
  | .call (y :: _) => cases h; rfl
  | .mem a =>
    simp only [fetchMessage] at h
    split at h
    · cases h
    · next ha =>
      split at h
      · cases h
      · next bs hbs =>
        obtain ⟨a0, r0, -, hr0, rfl⟩ := readBytes_succ_ok hbs
        obtain ⟨a1, r1, -, hr1, rfl⟩ := readBytes_succ_ok hr0
        obtain ⟨f0, r2, hf0, hr2, rfl⟩ := readBytes_succ_ok hr1
        obtain ⟨f1, r3, hf1, -, rfl⟩ := readBytes_succ_ok hr2
        have hm : m.flags = BitVec.ofNat 16 (fromLe16 f0 f1) := by
          unfold messageOfBytes at h
          split at h
          · next hd => cases h; exact descriptorOf_flags hd
          · cases h
        simp [fetchFlags, ha, readBytes, hf0, hf1, hm]

/-! ### What each action does in an invocation -/

theorem InInvocation.inv_eq (h : InInvocation s b x v) : x.inv = some v := h.2.2

section Actions

variable (h : InInvocation s b x v)
include h

theorem exec_evTx_last (hd : x.dcnt < 1) :
    exec .evTx s = .next (s.putBus b ({ x with dcnt := x.dcnt - 1 }.toStage .b)) := by
  have hneg : x.dcnt - 1 < 0 := by omega
  exact (withInvocation_of_in h _).trans (if_pos hneg)

/-- EV.TX with a byte left comes to the pointer. -/
theorem exec_evTx_send {p : Nat} {w : Byte} (hd : 1 ≤ x.dcnt) (hp : x.ptr = some p) (hw : memRead s.mem p = .ok w) :
    exec .evTx s = .next (s.putBus b (((((({ x with dcnt := x.dcnt - 1 } : Bus).trace s.cfg.traceEn v.snap .phase
      0).trace s.cfg.traceEn v.snap .send (w.toNat : Int)).writeReg .dr (w.zeroExtend 16)).advancePtr).toStage .b)) := by
  have hneg : ¬x.dcnt - 1 < 0 := by omega
  refine (withInvocation_of_in h _).trans ((if_neg hneg).trans ?_)
  simp only [hp, hw, orFault]

theorem exec_evTx_null (hd : 1 ≤ x.dcnt) (hp : x.ptr = none) : exec .evTx s = .fault .nullBuffer := by
  have hneg : ¬x.dcnt - 1 < 0 := by omega
  refine (withInvocation_of_in h _).trans ((if_neg hneg).trans ?_)
  simp only [hp]

theorem exec_evRxAddr : exec .evRxAddr s = if s.interruptMode
    then .next (s.putBus b (((x.trace s.cfg.traceEn v.snap .itbufen 0).setItbufen true true).toStage .b))
    else .next (s.putBus b (x.toStage .b)) := withInvocation_of_in h _

theorem exec_evRx_last (hd : x.dcnt < 1) :
    exec .evRx s = .next (s.putBus b ({ x with dcnt := x.dcnt - 1 }.toStage .b)) := by
  have hneg : x.dcnt - 1 < 0 := by omega
  exact (withInvocation_of_in h _).trans (if_pos hneg)

theorem exec_evRx_receive {p : Nat} (hd : 1 ≤ x.dcnt) (hp : x.ptr = some p) :
    exec .evRx s = .next ({ s with mem := memWrite s.mem p ((x.dr.zeroExtend 16).setWidth 8) }.putBus b
      (((({ x with dcnt := x.dcnt - 1 } : Bus).trace s.cfg.traceEn v.snap .recv (x.dcnt - 1)).advancePtr
        |>.clearAckBeforeLast).toStage .b)) := by
  have hneg : ¬x.dcnt - 1 < 0 := by omega
  refine (withInvocation_of_in h _).trans ((if_neg hneg).trans ?_)
  simp only [hp]
  rfl

theorem exec_evRx_null (hd : 1 ≤ x.dcnt) (hp : x.ptr = none) : exec .evRx s = .fault .nullBuffer := by
  have hneg : ¬x.dcnt - 1 < 0 := by omega
  refine (withInvocation_of_in h _).trans ((if_neg hneg).trans ?_)
  simp only [hp]

theorem exec_postBufEn : exec .postBufEn s = .next (s.putBus b ((x.setItbufen s.interruptMode true).toStage .c)) :=
  withInvocation_of_in h _

theorem exec_postBufDis : exec .postBufDis s = .next (s.putBus b ((x.setItbufen s.interruptMode false).toStage .c)) :=
  withInvocation_of_in h _

theorem exec_postBtf : exec .postBtf s = .next (s.putBus b (x.toStage .sub)) := withInvocation_of_in h _

theorem exec_postBtfSplice {p : MsgPtr} {m : Message} (hp : x.msgv = some p) (hm : fetchMessage s.mem p = .ok m) :
    exec .postBtfSplice s = .next (s.putBus b ((x.spliceMessage s.interruptMode m).toStage .d)) := by
  refine (withInvocation_of_in h _).trans ?_
  simp only [hp, fetchCursor, hm, orFault]

theorem exec_postBtfRestart : exec .postBtfRestart s = .next (s.putBus b
    (((x.trace s.cfg.traceEn v.snap .restart x.msgc).modifyReg .cr1 0x0000#16 CR1_START).toStage .d)) :=
  withInvocation_of_in h _

theorem exec_postBtfStop : exec .postBtfStop s = .next (s.putBus b
    ({ ((x.trace s.cfg.traceEn v.snap .stop 0).modifyReg .cr1 0x0000#16 CR1_STOP).wake s.interruptMode with
      msgv := none }.toStage .d)) :=
  withInvocation_of_in h _

theorem exec_postBtfNone : exec .postBtfNone s = .next (s.putBus b (x.toStage .d)) := withInvocation_of_in h _

theorem exec_postErr : exec .postErr s = .next (s.putBus b
    (((x.writeReg .sr1 0x0000#16).wake s.interruptMode).toStage .fin)) := withInvocation_of_in h _

theorem exec_postLatch : exec .postLatch s = .next (s.putBus b (x.leaveInvocation v)) := withInvocation_of_in h _

end Actions

/-! ### The statements -/

/-- Settles O21: what EV.TX needs of the snapshot and the cursor, then its three cases by `dcnt` and `ptr`. -/
theorem evTxResult : Obligations.EvTxResult := by
  intro s b x v h
  refine ⟨fun hs => ?_, fun p w hd hp hw => ?_, fun hd => ?_, exec_evTx_null h⟩
  · rw [selects_stageA hs, dispatchA_eq_evTx]; rfl
  · rw [exec_evTx_send h hd hp hw]
    cases ht : s.cfg.traceEn <;> simp [Bus.toStage, h.inv_eq, Bus.trace, Bus.writeReg, Bus.advancePtr, hp]
  · rw [exec_evTx_last h hd]; simp [Bus.toStage, h.inv_eq]

/-- Settles O22: EV.RX is the last of the first-match chain of stage A; then its three cases by `dcnt` and `ptr`. -/
theorem evRxResult : Obligations.EvRxResult := by
  intro s b x v h
  refine ⟨fun hs => ?_, fun p hd hp => ?_, fun hd => ?_, exec_evRx_null h⟩
  · simp only [selects_stageA hs]; exact dispatchA_eq_evRx
  · rw [exec_evRx_receive h hd hp]
    simp [Bus.toStage, h.inv_eq, Bus.trace, Bus.advancePtr, Bus.clearAckBeforeLast, hp, CR1_ACK]
  · rw [exec_evRx_last h hd]; simp [Bus.toStage, h.inv_eq]

/-- Settles O23: the dispatch conditions of the three actions, and ITBUFEN after each, by the mode. -/
theorem bufferInterruptResult : Obligations.BufferInterruptResult := by
  intro s b x v h
  refine ⟨fun hs => ?_, fun hs => ⟨?_, ?_⟩, fun hm => ?_, fun hm => ?_, ?_, ?_⟩
  · rw [selects_stageA hs, dispatchA_eq_evRxAddr]; rfl
  · rw [selects_stageB hs, dispatchB_eq_postBufEn, ← State.interruptMode_iff]; rfl
  · rw [selects_stageB hs, dispatchB_eq_postBufDis, ← State.interruptMode_iff]; rfl
  · rw [exec_evRxAddr h, if_pos (State.interruptMode_iff.mpr hm)]
    simp [Bus.toStage, h.inv_eq, Bus.trace, Bus.setItbufen, CR2_ITBUFEN]
  · rw [exec_evRxAddr h, if_neg (by simp [hm])]; simp [Bus.toStage, h.inv_eq]
  · rw [exec_postBufEn h]
    simp [Bus.toStage, h.inv_eq, Bus.setItbufen, CR2_ITBUFEN]
  · rw [exec_postBufDis h]
    simp [Bus.toStage, h.inv_eq, Bus.setItbufen, CR2_ITBUFEN]

/-- Settles O24: the branch of POST.BTF by `msgc` and `msgv`, and the effects of POST.BTF, RESTART and NONE. -/
theorem endOfMessageResult : Obligations.EndOfMessageResult := by
  intro s b x v h
  refine ⟨fun hs => ?_, fun p fl hs hc hp hf i => selects_next hs hc hp hf, fun hs hc i => selects_last hs hc,
    ?_, ?_, ?_⟩
  · rw [selects_stageC hs, dispatchC_eq_postBtf]; rfl
  · rw [exec_postBtf h]; simp [Bus.toStage, h.inv_eq]
  · rw [exec_postBtfRestart h]
    simp [Bus.toStage, h.inv_eq, Bus.trace, Bus.modifyReg, Bus.writeReg, Bus.readReg, CR1_START]
  · rw [exec_postBtfNone h]; simp [Bus.toStage, h.inv_eq]

/-- Settles O25: the flags read ahead are those of the message fetched, so they choose the splice of that message. -/
theorem spliceResult : Obligations.SpliceResult := by
  intro s b x v p m h hp hm
  refine ⟨fun hs hc => ?_, ?_⟩
  · rw [selects_next hs hc hp (fetchFlags_of_fetchMessage hm)]
    split <;> simp [*]
  · rw [exec_postBtfSplice h hp hm]
    simp [Bus.toStage, h.inv_eq, Bus.spliceMessage, Bus.loadCursor, Bus.advanceCursor, Bus.setItbufen, CR2_ITBUFEN, hp]

/-- Settles O26: the branch of no message left, and STOP requested, the waiter woken, the pointer cleared. -/
theorem stopResult : Obligations.StopResult := by
  intro s b x v h
  refine ⟨fun hs => ?_, ?_⟩
  · by_cases hc : 0 < x.msgc
    · simp [not_selects_stop hs hc, hc]
    · rw [selects_last hs (Int.not_lt.mp hc)]
      split <;> simp_all
  · rw [exec_postBtfStop h]
    simp [Bus.toStage, h.inv_eq, Bus.trace, Bus.modifyReg, Bus.writeReg, Bus.readReg, Bus.wake, CR1_STOP]

/-- Settles O27: an error flag selects POST.ERR at stage D, otherwise the latch, which also ends every invocation. -/
theorem errorAndLatchResult : Obligations.ErrorAndLatchResult := by
  intro s b x v h
  refine ⟨fun hs => ⟨?_, ?_⟩, fun hs => (selects_fin hs).mpr rfl, ?_, exec_postLatch h⟩
  · rw [selects_stageD hs, dispatchD_eq_postErr, anyBit_iff]; rfl
  · rw [selects_stageD hs, dispatchD_eq_postLatch, anyBit_eq_false_iff]; rfl
  · rw [exec_postErr h]
    simp [Bus.toStage, h.inv_eq, Bus.writeReg, Bus.wake, clearErrorFlags, SR1_ERRORS]

end Sys2Proof.Machine

/-! SUPPORT. The proofs about ORCH (42_transaction_orchestrator.md). First what the shared definitions say: the step that
comes next, the updates of the bus, one poll of WaitStop; then each step's effect inside a transaction. The statements of
the family are settled from these. -/

namespace Sys2Proof.Machine

section Orchestrator

variable {s : State} {t n : Nat} {x : Txn} {y : Bus}

/-! ### The shared definitions -/

/-- The steps whose successor depends on nothing (R200): all but 1, 9, 10 and 14. -/
theorem State.past_eq_succ (hn : n ∉ [1, 9, 10, 14]) : s.past x n = { x with step := n + 1 } := by
  have : nextStep (s.cfg.pinConflict x.bus) x.outcome n = n + 1 := by
    unfold nextStep
    split <;> simp_all
  rw [State.past, this]

/-- A write to SR1 clears its seven error flags (20_memory.md R75a). -/
theorem Bus.writeReg_sr1 (v : Half) : y.writeReg .sr1 v = { y with sr1 := y.sr1 &&& 0x20FF#16 } := by
  have : ~~~SR1_ERRORS = 0x20FF#16 := by decide
  simp [Bus.writeReg, clearErrorFlags, this]

theorem Bus.modifyReg_cr1 (clr set : Half) :
    y.modifyReg .cr1 clr set = { y with cr1 := modifyBits y.cr1 clr set } := rfl

theorem Bus.armAndMark_eq : y.armAndMark = { y with cr2 := y.cr2 ||| 0x0300#16, hs := .waiting } := by
  have : CR2_ITERREN ||| CR2_ITEVTEN = 0x0300#16 := by decide
  simp [Bus.armAndMark, Bus.modifyReg, Bus.writeReg, Bus.readReg, this]

/-- The dump is the last entries of the log (44_trace.md R274, R276). -/
theorem State.dumpTrace_eq (b : Nat) : s.dumpTrace b y = { s with
    sink := if s.cfg.traceEn = true
      then s.sink ++ [SinkItem.dump b (y.trLog.drop (y.trLog.length - s.cfg.traceCap))] else s.sink } := by
  cases ht : s.cfg.traceEn <;> simp [State.dumpTrace, State.emit, ring, ht]

/-! ### One poll of WaitStop (R203) -/

theorem waitStop_idle (hs : y.cr1 &&& CR1_STOP = 0#16) :
    waitStop s t x y n = .next (s.putTxn t { s.past x n with stopT0 := none }) :=
  if_neg (by simpa [anyBit, Bus.readReg] using hs)

theorem waitStop_pending (hs : y.cr1 &&& CR1_STOP ≠ 0#16) : waitStop s t x y n =
    if s.cfg.stopWaitTicks ≤ s.now - x.stopT0.getD s.now
    then .next ((s.emit (.stopPending x.bus)).putTxn t { s.past x n with stopT0 := none })
    else .next (s.putTxn t { x with stopT0 := some (x.stopT0.getD s.now) }) :=
  if_pos (anyBit_iff.mpr hs)

/-! ### What each step does in a transaction -/

section Steps

variable (h : InTxn s t x y)
include h

theorem exec_orchXperiphOff : exec .orchXperiphOff s = if s.cfg.pinConflict x.bus
    then .next ({ s with xperiphEn := false }.putTxn t { s.past x 2 with savedX := s.xperiphEn })
    else .next (s.putTxn t (s.past x 2)) := withTxn_of_inTxn h _

theorem exec_orchXperiphOn : exec .orchXperiphOn s = if s.cfg.pinConflict x.bus
    then .next ({ s with xperiphEn := x.savedX }.putTxn t (s.past x 16))
    else .next (s.putTxn t (s.past x 16)) := withTxn_of_inTxn h _

theorem exec_orchWaitStop : exec .orchWaitStop s = waitStop s t x y 3 := withTxn_of_inTxn h _

theorem exec_orchWaitStop2 : exec .orchWaitStop2 s = if s.cfg.pinConflict x.bus
    then waitStop s t x y 15 else .next (s.putTxn t (s.past x 15)) := withTxn_of_inTxn h _

theorem exec_orchClrErr : exec .orchClrErr s
    = .next ((s.putBus x.bus (y.writeReg .sr1 0x0000#16)).putTxn t (s.past x 4)) := withTxn_of_inTxn h _

theorem exec_orchClrReq : exec .orchClrReq s = .next ((s.putBus x.bus
    (y.modifyReg .cr1 (CR1_START ||| CR1_STOP ||| CR1_PEC) 0x0000#16)).putTxn t (s.past x 5)) := withTxn_of_inTxn h _

theorem exec_orchInstall : exec .orchInstall s = .next ((s.putBus x.bus
    ((y.install x.messages x.count).resetTrace s.cfg.traceEn)).putTxn t (s.past x 6)) := withTxn_of_inTxn h _

theorem exec_orchStart : exec .orchStart s = .next ((s.putBus x.bus
    ({ y with status := 0x00000000#32 }.modifyReg .cr1 0x0000#16 CR1_START)).putTxn t (s.past x 8)) :=
  withTxn_of_inTxn h _

theorem exec_orchWait_interrupt (hw : x.wait = .fresh) (hm : s.cfg.mode = .interrupt) : exec .orchWait s
    = .next ((s.putBus x.bus y.armAndMark).putTxn t { x with wait := .blocked (s.now + s.cfg.timeoutTicks) }) := by
  refine (withTxn_of_inTxn h _).trans ?_
  simp only [hw, State.interruptMode_iff.mpr hm, if_true]

theorem exec_orchWait_polled (hw : x.wait = .fresh) (hm : s.cfg.mode = .polled) : exec .orchWait s
    = .next ((s.putBus x.bus ({ y with hs := .waiting }.enterInvocation s.cfg.traceEn)).putTxn t
      { x with wait := .polling s.now }) := by
  have hi : ¬s.interruptMode = true := by simp [hm]
  refine (withTxn_of_inTxn h _).trans ?_
  simp only [hw, if_neg hi]

theorem exec_orchTimeout : exec .orchTimeout s = .next (((s.emit (.timedOut x.bus (y.readReg .cr1)
    y.readStatus)).putBus x.bus (y.modifyReg .cr1 CR1_START 0x0000#16)).putTxn t
      { s.past x 10 with st := y.readStatus, result := .timeout }) := withTxn_of_inTxn h _

theorem exec_orchDump : exec .orchDump s = .next ((s.dumpTrace x.bus y).putTxn t (s.past x 14)) :=
  withTxn_of_inTxn h _

/-- Step 3, and step 15 with a pin conflict, are the same poll on the way to the next step. -/
theorem exec_eq_waitStop {i : Instr} (hi : (i = .orchWaitStop ∧ n = 4) ∨
    (i = .orchWaitStop2 ∧ n = 16 ∧ s.cfg.pinConflict x.bus = true)) :
    ∃ m, exec i s = waitStop s t x y m ∧ s.past x m = { x with step := n } := by
  obtain ⟨rfl, rfl⟩ | ⟨rfl, rfl, hc⟩ := hi
  · exact ⟨3, exec_orchWaitStop h, State.past_eq_succ (by decide)⟩
  · exact ⟨15, (exec_orchWaitStop2 h).trans (if_pos hc), State.past_eq_succ (by decide)⟩

end Steps

end Orchestrator

/-! ### The statements -/

/-- Settles O30: both steps by whether the bus has a pin conflict. -/
theorem pinConflictResult : Obligations.PinConflictResult := by
  intro s t x y h
  rw [exec_orchXperiphOff h, exec_orchXperiphOn h, State.past_eq_succ (by decide), State.past_eq_succ (by decide)]
  exact ⟨fun hc => ⟨if_pos hc, if_pos hc⟩, fun hc => by simp [hc]⟩

/-- Settles O31: the three outcomes of a poll, and step 15 without a pin conflict. -/
theorem waitStopResult : Obligations.WaitStopResult := by
  refine ⟨fun s t x y i n h hi => ?_, fun s t x y h hc => ?_⟩
  · obtain ⟨m, he, hp⟩ := exec_eq_waitStop h hi
    rw [he]
    refine ⟨fun hs => ?_, fun hs ht => ?_, fun hs ht => ?_⟩
    · rw [waitStop_idle hs, hp]
    · rw [waitStop_pending hs, if_pos ht, hp, State.emit]
    · rw [waitStop_pending hs, if_neg (Nat.not_le.mpr ht)]
  · rw [exec_orchWaitStop2 h, if_neg (by simp [hc]), State.past_eq_succ (by decide)]

/-- Settles O32: the next step, and the masks of the registers that the four steps write. -/
theorem setUpResult : Obligations.SetUpResult := by
  intro s t x y h
  refine ⟨?_, ?_, ?_, ?_⟩
  · rw [exec_orchClrErr h, State.past_eq_succ (by decide), Bus.writeReg_sr1]
  · have hmask : CR1_START ||| CR1_STOP ||| CR1_PEC = 0x1300#16 := by decide
    rw [exec_orchClrReq h, State.past_eq_succ (by decide), Bus.modifyReg_cr1, modifyBits_clear, hmask]
  · rw [exec_orchInstall h, State.past_eq_succ (by decide), Bus.install, Bus.resetTrace]
  · rw [exec_orchStart h, State.past_eq_succ (by decide), Bus.modifyReg_cr1, modifyBits_set, CR1_START]

/-- Settles O33: the first attempt of step 9, by the mode. -/
theorem waitBegins : Obligations.WaitBegins := by
  intro s t x y h hw
  refine ⟨fun hm => ?_, fun hm => ?_⟩
  · rw [exec_orchWait_interrupt h hw hm, Bus.armAndMark_eq]
  · exact exec_orchWait_polled h hw hm

/-- Settles O36: step 10 clears the bit of START; its successor is step 14, and the status it reads is SR1 with SR2. -/
theorem timeoutResult : Obligations.TimeoutResult := by
  intro s t x y h
  rw [exec_orchTimeout h, Bus.modifyReg_cr1, modifyBits_clear]
  rfl

/-- Settles O38: the dump is the ring; the step after it depends on the pin conflict. -/
theorem dumpResult : Obligations.DumpResult := by
  intro s t x y h
  rw [exec_orchDump h, State.dumpTrace_eq]
  rfl

end Sys2Proof.Machine

/-! SUPPORT. The proofs about the host commands (43_host_operations.md). First when WRITEREAD's operands meet R253 and which
messages it builds by the sign of `rlen`; then its effect on a ready caller. The statements of the family are settled from
these. -/

namespace Sys2Proof.Machine

section HostCommands

variable {s : State} {t h : Nat} {d : Handle} {wb rb : Option Nat} {wn : Nat} {rn : Int}

/-! ### The operands and messages of WRITEREAD -/

/-- Both buffers are there where their length says they are used: R253 is met. -/
theorem writeReadFault_eq_none (hw : wn = 0 ∨ wb ≠ none) (hr : rn = 0 ∨ rb ≠ none) :
    writeReadFault wb wn rb rn = none := by
  have hwb : ¬(0 < (wn : Int) ∧ wb = none) := fun ⟨hn, hb⟩ => hw.elim (by omega) (· hb)
  have hrb : ¬(rn ≠ 0 ∧ rb = none) := fun ⟨hn, hb⟩ => hr.elim hn (· hb)
  rw [writeReadFault, if_neg hwb, if_neg hrb, if_neg (by omega)]

/-- R249: a positive `rlen` is a read of that length with a START of its own. -/
theorem secondMessage_of_pos (hn : 0 < rn) :
    secondMessage d rb rn = ⟨d.address, d.iflags ||| M_READ, rb, rn.toNat⟩ := by
  have hlen : rn.natAbs = rn.toNat := by omega
  simp [secondMessage, rlenNoRestart, rlenLength, hlen, Int.not_lt.mpr hn.le]

/-- R250: a negative `rlen` is a read of its magnitude without a START of its own. -/
theorem secondMessage_of_neg (hn : rn < 0) :
    secondMessage d rb rn = ⟨d.address, d.iflags ||| M_READ ||| M_NORESTART, rb, (-rn).toNat⟩ := by
  have hlen : rn.natAbs = (-rn).toNat := by omega
  simp [secondMessage, rlenNoRestart, rlenLength, hlen, hn]

theorem writeReadMessages_of_ne (hn : rn ≠ 0) : writeReadMessages d wb wn rb rn
    = [⟨d.address, d.iflags, wb, wn⟩, secondMessage d rb rn] := if_neg hn

/-- R251: with `rlen = 0` there is no second message. -/
theorem writeReadMessages_zero : writeReadMessages d wb wn rb 0 = [⟨d.address, d.iflags, wb, wn⟩] := rfl

/-! ### WRITEREAD by a ready caller -/

theorem exec_writeRead_ready (hc : CallerReady s t) (hd : s.handle? h = some d) (hw : wn = 0 ∨ wb ≠ none)
    (hr : rn = 0 ∨ rb ≠ none) : exec (.writeRead (some h) wb wn rb rn) s
      = .next (s.putTxn t (Txn.start h d (.call (writeReadMessages d wb wn rb rn))
          (writeReadMessages d wb wn rb rn).length)) :=
  calc exec (.writeRead (some h) wb wn rb rn) s
    _ = enterExecute s t h d (.call (writeReadMessages d wb wn rb rn)) (writeReadMessages d wb wn rb rn).length
          (writeReadFault wb wn rb rn) := (withCaller_of_ready hc _).trans (withHandle_of_live hd _)
    _ = _ := by rw [writeReadFault_eq_none hw hr, enterExecute]

end HostCommands

/-! ### The statements -/

/-- Settles O16: the list of messages by the sign of `rlen`. -/
theorem writeReadResult : Obligations.WriteReadResult := by
  intro s t h d wb wn rb rn hc hd hw hr
  rw [exec_writeRead_ready hc hd hw hr]
  refine ⟨fun hn => ?_, fun hn => ?_, fun hn => ?_⟩
  · rw [writeReadMessages_of_ne hn.ne', secondMessage_of_pos hn]; rfl
  · rw [writeReadMessages_of_ne hn.ne, secondMessage_of_neg hn]; rfl
  · rw [hn, writeReadMessages_zero]; rfl

end Sys2Proof.Machine

/-! SUPPORT. The proofs about the exceptions (60_exceptions.md): the bits that the classifier tests, then what it answers with
an error flag set and with none set, from which its priority order is read off. -/

namespace Sys2Proof.Machine

/-! ### The bits of the snapshot that the classifier tests -/

@[simp] theorem anyBit_S_BERR (a : Word32) : anyBit a S_BERR = a.getLsbD 8 := anyBit_twoPow a (i := 8) (by decide)
@[simp] theorem anyBit_S_ARLO (a : Word32) : anyBit a S_ARLO = a.getLsbD 9 := anyBit_twoPow a (i := 9) (by decide)
@[simp] theorem anyBit_S_AF (a : Word32) : anyBit a S_AF = a.getLsbD 10 := anyBit_twoPow a (i := 10) (by decide)
@[simp] theorem anyBit_S_OVR (a : Word32) : anyBit a S_OVR = a.getLsbD 11 := anyBit_twoPow a (i := 11) (by decide)
@[simp] theorem anyBit_S_PECERR (a : Word32) : anyBit a S_PECERR = a.getLsbD 12 := anyBit_twoPow a (i := 12) (by decide)
@[simp] theorem anyBit_S_TIMEOUT (a : Word32) : anyBit a S_TIMEOUT = a.getLsbD 14 := anyBit_twoPow a (i := 14) (by decide)
@[simp] theorem anyBit_S_SMBALERT (a : Word32) : anyBit a S_SMBALERT = a.getLsbD 15 := anyBit_twoPow a (i := 15) (by decide)
@[simp] theorem anyBit_S_BUSY (a : Word32) : anyBit a S_BUSY = a.getLsbD 17 := anyBit_twoPow a (i := 17) (by decide)

/-- Where a mask selects nothing, a part of that mask selects nothing either. -/
theorem anyBit_eq_false_of_subset {w : Nat} {a m n : BitVec w} (h : a &&& n = 0#w) (hm : n &&& m = m) :
    anyBit a m = false :=
  anyBit_eq_false_iff.mpr <| calc
    a &&& m = a &&& n &&& m := by rw [BitVec.and_assoc, hm]
    _ = 0#w := by rw [h, BitVec.zero_and]

/-! ### The classifier -/

theorem classifyErrors_of_clear {st : Word32} (h : st &&& S_ERRORS = 0#32) : classifyErrors st = .ok := by
  simp (disch := decide) only [classifyErrors, anyBit_eq_false_of_subset h, Bool.false_eq_true, if_false]

/-- R294: with no error flag set, BUSY alone decides. -/
theorem classify_of_clear {st : Word32} (h : st &&& S_ERRORS = 0#32) :
    classify st = if anyBit st S_BUSY then .resourceBusy else .ok := by
  simp only [classify, busyCheck, anyBit_eq_false_iff.mpr h, classifyErrors_of_clear h, Bool.not_false, Bool.true_and]

/-- R294: with an error flag set, BUSY does not matter. -/
theorem classify_of_flag {st f : Word32} (hf : S_ERRORS &&& f = f) (h : anyBit st f = true) :
    classify st = classifyErrors st := by
  have herr : anyBit st S_ERRORS = true :=
    anyBit_iff.mpr fun h0 => Bool.false_ne_true ((anyBit_eq_false_of_subset h0 hf).symm.trans h)
  simp only [classify, busyCheck, herr, Bool.not_true, Bool.false_and, Bool.false_eq_true, if_false]

/-- Settles O44: a flag that is set answers when the mask of the flags before it selects nothing; BUSY answers when the
whole error mask selects nothing. -/
theorem classifierPriority : Obligations.ClassifierPriority := by
  intro st
  rw [← anyBit_S_BERR, ← anyBit_S_ARLO, ← anyBit_S_AF, ← anyBit_S_OVR, ← anyBit_S_PECERR, ← anyBit_S_TIMEOUT,
    ← anyBit_S_SMBALERT, ← anyBit_S_BUSY]
  refine ⟨fun hBerr => ?_, fun hc hArlo => ?_, fun hc hAf => ?_, fun hc hOvr => ?_, fun hc hPecerr => ?_,
    fun hc hTimeout => ?_, fun hc hSmbalert => ?_, fun hc hBusy => ?_⟩
  · rw [classify_of_flag (by decide) hBerr, classifyErrors, if_pos hBerr]
  · rw [classify_of_flag (by decide) hArlo, classifyErrors, hc, if_neg Bool.false_ne_true, if_pos hArlo]
  · rw [classify_of_flag (by decide) hAf]
    simp (disch := decide) only [classifyErrors, anyBit_eq_false_of_subset hc, hAf, reduceIte, Bool.false_eq_true]
  · rw [classify_of_flag (by decide) hOvr]
    simp (disch := decide) only [classifyErrors, anyBit_eq_false_of_subset hc, hOvr, reduceIte, Bool.false_eq_true]
  · rw [classify_of_flag (by decide) hPecerr]
    simp (disch := decide) only [classifyErrors, anyBit_eq_false_of_subset hc, hPecerr, reduceIte, Bool.false_eq_true]
  · rw [classify_of_flag (by decide) hTimeout]
    simp (disch := decide) only [classifyErrors, anyBit_eq_false_of_subset hc, hTimeout, reduceIte, Bool.false_eq_true]
  · rw [classify_of_flag (by decide) hSmbalert]
    simp (disch := decide) only [classifyErrors, anyBit_eq_false_of_subset hc, hSmbalert, reduceIte, Bool.false_eq_true]
  · rw [classify_of_clear hc, if_pos hBusy]

end Sys2Proof.Machine

/-! SUPPORT. The proofs about the encoding (30_encoding.md): a command's bytes read back, the kind of a message by its
flags, and the words of every operation decoded. -/

namespace Sys2Proof.Machine

/-! ### Format H -/

theorem operandCount_lt {code k : Nat} (h : operandCount code = some k) : code < 256 := by
  unfold operandCount at h
  split at h <;> cases h <;> decide

/-- The bytes of a command give its code and its operand fields back. -/
theorem decode_commandWord {code : Nat} {ws : List Nat} (hc : operandCount code = some ws.length)
    (hw : ∀ n ∈ ws, n < 4294967296) : decode (commandWord code ws) = commandOf code ws := by
  have hcode : (BitVec.ofNat 8 code).toNat = code := by
    rw [BitVec.toNat_ofNat]
    exact Nat.mod_eq_of_lt (operandCount_lt hc)
  simp only [decode, commandWord, decodeCommand, hcode, hc, words_flatMap hw]

/-! ### Format M (R102, R103) -/

/-- The eight kinds: the bits 0, 1 and 7 of the flags. -/
theorem kind_mem (f : Half) : f &&& kindMask ∈
    [0x0000#16, 0x0001#16, 0x0080#16, 0x0081#16, 0x0002#16, 0x0003#16, 0x0082#16, 0x0083#16] := by
  have hmask : kindMask = BitVec.twoPow 16 0 ||| BitVec.twoPow 16 1 ||| BitVec.twoPow 16 7 := by decide
  rw [hmask, BitVec.and_or_distrib_left, BitVec.and_or_distrib_left, BitVec.and_twoPow, BitVec.and_twoPow,
    BitVec.and_twoPow]
  split_ifs <;> decide

/-- The reserved bits and the kind bits are all the flags (R102). -/
theorem reserved_or_kind (f : Half) : f &&& reservedFlagMask ||| f &&& kindMask = f := by
  rw [← BitVec.and_or_distrib_left]
  exact BitVec.and_allOnes

theorem or_kind_and_reserved {f g : Half} (h : f &&& kindMask = 0#16) (hg : g &&& reservedFlagMask = 0#16) :
    (f ||| g) &&& reservedFlagMask = f := by
  have hf := reserved_or_kind f
  rw [h, BitVec.or_zero] at hf
  rw [BitVec.and_or_distrib_right, hf, hg, BitVec.or_zero]

theorem or_kind_and_mask {f g : Half} (h : f &&& kindMask = 0#16) (hg : g &&& kindMask = g) :
    (f ||| g) &&& kindMask = g := by
  rw [BitVec.and_or_distrib_right, h, hg, BitVec.zero_or]

/-- The twelve bytes of a message give it back (R101). -/
theorem descriptorOf_bytes {m : Message} (hp : WellFormed.pointer m.buffer = true)
    (hn : WellFormed.length m.length = true) : descriptorOf m.bytes = .ok m := by
  have hlen : m.length < 2147483648 := by simpa [WellFormed.length] using hn
  have hword := fromLe32_le32 (n := m.length) (by omega)
  simp only [Message.bytes, le16, le32, List.cons_append, List.nil_append, descriptorOf, hword, if_pos hlen,
    fromLe16_le16 (BitVec.isLt m.addr), fromLe16_le16 (BitVec.isLt m.flags), fromLe32_le32 (ofPointer_lt hp),
    toPointer_ofPointer hp]
  simp only [BitVec.ofNat_toNat, BitVec.setWidth_eq]

theorem decode_descriptorWord {kind a rsv : Half} {p : Option Nat} {n : Nat}
    (h : WellFormed.descriptor rsv p n = true) :
    decode (descriptorWord kind a rsv p n) = .ok (Message.mk a (rsv ||| kind) p n).instr := by
  simp only [WellFormed.descriptor, Bool.and_eq_true] at h
  obtain ⟨⟨-, hp⟩, hn⟩ := h
  simp only [decode, descriptorWord, descriptorOf_bytes (m := ⟨a, rsv ||| kind, p, n⟩) hp hn]

/-- The message that a format M operation encodes is that operation. -/
theorem instr_of_message? {i : Instr} {m : Message} (hi : i.message? = some m) (hw : i.wf = true) : m.instr = i := by
  cases i
  case msgW a r p n | msgR a r p n | msgWNr a r p n | msgRNr a r p n | msgWTen a r p n | msgRTen a r p n
      | msgWTenNr a r p n | msgRTenNr a r p n =>
    cases hi
    have hr : r &&& kindMask = 0#16 := by
      simp only [Instr.wf, WellFormed.descriptor, WellFormed.reservedOnly, Bool.and_eq_true, beq_iff_eq] at hw
      exact hw.1.1
    rw [Message.instr, or_kind_and_mask hr (by decide), or_kind_and_reserved hr (by decide)]
    rfl
  all_goals cases hi

/-! ### The statements -/

/-- Settles O1: the operand fields of a command, the twelve bytes of a message, and a dispatch value, number or divider
that selects each of the other operations. -/
theorem encodeDecodeAgree : Obligations.EncodeDecodeAgree := by
  intro i hw
  cases i
  case openBus b =>
    refine (decode_commandWord rfl ?_).trans ?_
    · simpa using ofSigned_lt b
    · rw [commandOf, toSigned_ofSigned hw]
  case closeHandle k =>
    refine (decode_commandWord rfl ?_).trans ?_
    · simpa using ofHandle_lt hw
    · rw [commandOf, toHandle_ofHandle hw]
  case setFreq k hz =>
    simp only [Instr.wf, Bool.and_eq_true, WellFormed.nat32, decide_eq_true_eq] at hw
    obtain ⟨hk, hz⟩ := hw
    refine (decode_commandWord rfl ?_).trans ?_
    · simp [ofHandle_lt hk, hz]
    · rw [commandOf, toHandle_ofHandle hk]
  case setAddr k a n =>
    simp only [Instr.wf, Bool.and_eq_true, WellFormed.nat32, decide_eq_true_eq] at hw
    obtain ⟨⟨hk, ha⟩, hn⟩ := hw
    refine (decode_commandWord rfl ?_).trans ?_
    · simp [ofHandle_lt hk, ha, hn]
    · rw [commandOf, toHandle_ofHandle hk]
  case write k p n | read k p n | transfer k p n =>
    simp only [Instr.wf, Bool.and_eq_true] at hw
    obtain ⟨⟨hk, hp⟩, hn⟩ := hw
    refine (decode_commandWord rfl ?_).trans ?_
    · simp [ofHandle_lt hk, ofPointer_lt hp, ofSigned_lt]
    · rw [commandOf, toHandle_ofHandle hk, toPointer_ofPointer hp, toSigned_ofSigned hn]
  case writeRead k wp wn rp rn =>
    simp only [Instr.wf, Bool.and_eq_true] at hw
    obtain ⟨⟨⟨⟨hk, hwp⟩, hwn⟩, hrp⟩, hrn⟩ := hw
    refine (decode_commandWord rfl ?_).trans ?_
    · simp [ofHandle_lt hk, ofPointer_lt hwp, ofPointer_lt hrp, ofSigned_lt]
    · rw [commandOf, toHandle_ofHandle hk, toPointer_ofPointer hwp, toSigned_ofSigned hwn, toPointer_ofPointer hrp,
        toSigned_ofSigned hrn]
  case msgW | msgR | msgWNr | msgRNr | msgWTen | msgRTen | msgWTenNr | msgRTenNr =>
    refine (decode_descriptorWord hw).trans ?_
    rw [instr_of_message? rfl hw]
  all_goals rfl

/-- Settles O3: the flags are the reserved bits with one of the eight kinds. -/
theorem flagsChooseTheKind : Obligations.FlagsChooseTheKind := by
  intro m
  have hflags := reserved_or_kind m.flags
  have hk := kind_mem m.flags
  change _ ∧ (m.flags &&& kindMask = _ ↔ _) ∧ (m.flags &&& kindMask = _ ↔ _) ∧ (m.flags &&& kindMask = _ ↔ _) ∧
    (m.flags &&& kindMask = _ ↔ _) ∧ (m.flags &&& kindMask = _ ↔ _) ∧ (m.flags &&& kindMask = _ ↔ _) ∧
    (m.flags &&& kindMask = _ ↔ _) ∧ (m.flags &&& kindMask = _ ↔ _)
  generalize hkind : m.flags &&& kindMask = kind at hk hflags ⊢
  simp only [List.mem_cons, List.not_mem_nil, or_false] at hk
  rcases hk with rfl | rfl | rfl | rfl | rfl | rfl | rfl | rfl <;>
    simp [Message.instr, hkind, Instr.message?, hflags]

/-- Settles O2: each word is evaluated. -/
theorem specWordsDecode : Obligations.SpecWordsDecode := by
  unfold Obligations.SpecWordsDecode
  decide

end Sys2Proof.Machine

/-! SUPPORT. The frames of the three agents' operations, said once for every operation of a format: what an operation of the
sequencer, of the orchestrator and of the host writes. The invariants of the machine are settled from these. -/

namespace Sys2Proof.Machine

variable {s s' : State} {i : Instr}

/-! ### Bits that a write leaves -/

/-- Bits outside both masks of a `RegModify16` stay (20_memory.md R73). -/
theorem modifyBits_and {v clr set k : Half} (hc : clr &&& k = 0#16) (hs : set &&& k = 0#16) :
    modifyBits v clr set &&& k = v &&& k := by
  have hk : ~~~clr &&& k = k := by
    calc ~~~clr &&& k = clr &&& k ||| ~~~clr &&& k := by rw [hc, BitVec.zero_or]
      _ = k := by rw [← BitVec.and_or_distrib_right, BitVec.or_not_self, BitVec.allOnes_and]
  rw [modifyBits, BitVec.and_or_distrib_right, hs, BitVec.or_zero, BitVec.and_assoc, hk]

theorem ite_modifyBits_and {c : Prop} [Decidable c] {v clr set k : Half} (hc : clr &&& k = 0#16)
    (hs : set &&& k = 0#16) : (if c then modifyBits v clr set else v) &&& k = v &&& k := by
  split
  · exact modifyBits_and hc hs
  · rfl

/-! ### The sequencer -/

theorem InInvocation.unique {b b' : Nat} {x x' : Bus} {v v' : Invocation} (h : InInvocation s b x v)
    (h' : InInvocation s b' x' v') : b' = b ∧ x' = x ∧ v' = v := by
  obtain ⟨hb, hx, hv⟩ := h
  obtain ⟨hb', hx', hv'⟩ := h'
  obtain rfl : b' = b := by simpa [hb] using hb'.symm
  obtain rfl : x' = x := by simpa [hx] using hx'.symm
  exact ⟨rfl, rfl, by simpa [hv] using hv'.symm⟩

/-- What a TSM action or a message writes of its bus, and which of them writes it (41_transfer_state_machine.md). -/
structure SequencerWrites (interrupt : Bool) (i : Instr) (x x' : Bus) : Prop where
  others : x' = { x with
    cr1 := x'.cr1, cr2 := x'.cr2, sr1 := x'.sr1, status := x'.status, hs := x'.hs, sig := x'.sig, msgv := x'.msgv
    msgc := x'.msgc, flags := x'.flags, dcnt := x'.dcnt, ptr := x'.ptr, trLog := x'.trLog, txLog := x'.txLog
    inv := x'.inv }
  cr1_bits : x'.cr1 &&& ~~~0x0700#16 = x.cr1 &&& ~~~0x0700#16
  cr2_bits : x'.cr2 &&& ~~~0x0400#16 = x.cr2 &&& ~~~0x0400#16
  cr2_polled : interrupt = false → x'.cr2 = x.cr2
  wakes : x'.hs = x.hs ∧ x'.sig = x.sig ∨ x'.hs = (x.wake interrupt).hs ∧ x'.sig = (x.wake interrupt).sig
  cr1 : x'.cr1 ≠ x.cr1 → formatOf i = .m ∨ i = .evStart ∨ i = .evRx ∨ i = .postBtfRestart ∨ i = .postBtfStop
  cr2 : x'.cr2 ≠ x.cr2 → formatOf i = .m ∨ i = .evRxAddr ∨ i = .postBufEn ∨ i = .postBufDis ∨ i = .postBtfSplice
  sr1 : x'.sr1 ≠ x.sr1 → i = .postErr
  status : x'.status ≠ x.status → i = .postLatch
  handshake : x'.hs ≠ x.hs ∨ x'.sig ≠ x.sig → i = .postBtfStop ∨ i = .postErr
  msgv : x'.msgv ≠ x.msgv → formatOf i = .m ∨ i = .evStart ∨ i = .postBtfSplice ∨ i = .postBtfStop
  message : x'.msgc ≠ x.msgc ∨ x'.flags ≠ x.flags → formatOf i = .m ∨ i = .evStart ∨ i = .postBtfSplice
  buffer : x'.dcnt ≠ x.dcnt ∨ x'.ptr ≠ x.ptr →
    formatOf i = .m ∨ i = .evStart ∨ i = .postBtfSplice ∨ i = .evTx ∨ i = .evRx
  trLog : x'.trLog ≠ x.trLog → i = .evStart ∨ i = .evTx ∨ i = .evRxAddr ∨ i = .evRx ∨ i = .postBtfRestart
    ∨ i = .postBtfStop
  txLog : x'.txLog ≠ x.txLog → formatOf i = .m ∨ i = .evStart ∨ i = .evTx




/-- The stage of the invocation is no field that the rules of the bus confine. -/
theorem SequencerWrites.toStage {interrupt : Bool} {x y : Bus} (h : SequencerWrites interrupt i x y) (st : Stage) :
    SequencerWrites interrupt i x (y.toStage st) :=
  { h with others := (congrArg (·.toStage st) h.others).trans rfl }

section Updates

variable {x : Bus} {m : Message} {interrupt on : Bool} {w : Word32} {n : Int}

theorem unchanged_writes : SequencerWrites interrupt i x x := by
  constructor <;> simp

theorem startMessage_writes (hi : formatOf i = .m) : SequencerWrites interrupt i x (x.startMessage m) := by
  constructor
  case others => rfl
  case cr1_bits => exact ite_modifyBits_and (by decide) (by decide)
  all_goals simp [hi]

theorem spliceMessage_writes (hi : formatOf i = .m ∨ i = .postBtfSplice) :
    SequencerWrites interrupt i x (x.spliceMessage interrupt m) := by
  constructor
  case others => rfl
  case cr2_bits => exact ite_modifyBits_and (by decide) (by decide)
  all_goals (rcases hi with hi | rfl <;> simp +contextual [*])

theorem evStart_writes : SequencerWrites interrupt .evStart x ((x.trace on w .start n).startMessage m) := by
  constructor
  case others => rfl
  case cr1_bits => exact ite_modifyBits_and (by decide) (by decide)
  all_goals simp

/-- EV.TX and EV.RX count down, whether or not a byte remains. -/
theorem countDown_writes (hi : i = .evTx ∨ i = .evRx) : SequencerWrites interrupt i x { x with dcnt := x.dcnt - 1 } := by
  constructor <;> simp [hi]

theorem evTx_writes {p : Int} {v : Half} : SequencerWrites interrupt .evTx x
    (((({ x with dcnt := x.dcnt - 1 } : Bus).trace on w .phase 0).trace on w .send p).writeReg .dr v).advancePtr := by
  constructor
  case others => rfl
  all_goals simp [Bus.writeReg]

theorem evRx_writes : SequencerWrites interrupt .evRx x
    ((({ x with dcnt := x.dcnt - 1 } : Bus).trace on w .recv n).advancePtr).clearAckBeforeLast := by
  constructor
  case others => rfl
  case cr1_bits => exact ite_modifyBits_and (by decide) (by decide)
  all_goals simp

theorem evRxAddr_writes : SequencerWrites true .evRxAddr x ((x.trace on w .itbufen 0).setItbufen true true) := by
  constructor
  case others => rfl
  case cr2_bits => exact modifyBits_and (by decide) (by decide)
  all_goals simp

theorem setItbufen_writes (hi : i = .postBufEn ∧ on = true ∨ i = .postBufDis ∧ on = false) :
    SequencerWrites interrupt i x (x.setItbufen interrupt on) := by
  obtain ⟨rfl, rfl⟩ | ⟨rfl, rfl⟩ := hi
  all_goals
    constructor
    case others => rfl
    case cr2_bits => exact ite_modifyBits_and (by decide) (by decide)
    all_goals simp +contextual

theorem restart_writes : SequencerWrites interrupt .postBtfRestart x
    ((x.trace on w .restart n).modifyReg .cr1 0x0000#16 CR1_START) := by
  rw [Bus.modifyReg_cr1]
  constructor
  case others => rfl
  case cr1_bits => exact modifyBits_and (by decide) (by decide)
  all_goals simp

theorem stop_writes : SequencerWrites interrupt .postBtfStop x
    { ((x.trace on w .stop 0).modifyReg .cr1 0x0000#16 CR1_STOP).wake interrupt with msgv := none } := by
  rw [Bus.modifyReg_cr1]
  constructor
  case others => rfl
  case cr1_bits => exact modifyBits_and (by decide) (by decide)
  all_goals simp

theorem err_writes : SequencerWrites interrupt .postErr x ((x.writeReg .sr1 0x0000#16).wake interrupt) := by
  rw [Bus.writeReg_sr1]
  constructor
  case others => rfl
  all_goals simp

theorem latch_writes {v : Invocation} : SequencerWrites interrupt .postLatch x (x.leaveInvocation v) := by
  constructor
  case others => rfl
  all_goals simp

end Updates

/-- Every action and message, by what it writes. EV.RX alone stores a byte of caller memory, at the cursor's own `ptr`. -/
theorem sequencer_next (hi : isSequencer i = true) (e : exec i s = .next s') :
    ∃ b x v x' mem, InInvocation s b x v ∧ s' = { s with mem := mem }.putBus b x' ∧
      (mem = s.mem ∨ i = .evRx ∧ 1 ≤ x.dcnt ∧ ∃ p w, x.ptr = some p ∧ mem = memWrite s.mem p w) ∧
      SequencerWrites s.interruptMode i x x' := by
  cases i
  case msgW | msgR | msgWTen | msgRTen =>
    obtain ⟨b, x, v, h, rfl⟩ := takeUp_next e
    exact ⟨b, x, v, _, s.mem, h, rfl, .inl rfl, startMessage_writes rfl⟩
  case msgWNr | msgRNr | msgWTenNr | msgRTenNr =>
    obtain ⟨b, x, v, h, ⟨-, rfl⟩ | ⟨-, rfl⟩⟩ := takeUpNoRestart_next e
    · exact ⟨b, x, v, _, s.mem, h, rfl, .inl rfl, spliceMessage_writes (.inl rfl)⟩
    · exact ⟨b, x, v, _, s.mem, h, rfl, .inl rfl, startMessage_writes rfl⟩
  case evStart =>
    obtain ⟨b, x, v, p, m, h, -, -, -, rfl⟩ := execEvStart_next e
    exact ⟨b, x, v, _, s.mem, h, rfl, .inl rfl, evStart_writes.toStage .b⟩
  case evTx =>
    obtain ⟨b, x, v, h, ⟨-, rfl⟩ | ⟨p, w, -, -, -, rfl⟩⟩ := execEvTx_next e
    · exact ⟨b, x, v, _, s.mem, h, rfl, .inl rfl, (countDown_writes (.inl rfl)).toStage .b⟩
    · exact ⟨b, x, v, _, s.mem, h, rfl, .inl rfl, evTx_writes.toStage .b⟩
  case evRxAddr =>
    obtain ⟨b, x, v, h, ⟨hm, rfl⟩ | ⟨-, rfl⟩⟩ := execEvRxAddr_next e
    · exact ⟨b, x, v, _, s.mem, h, rfl, .inl rfl, hm ▸ evRxAddr_writes.toStage .b⟩
    · exact ⟨b, x, v, _, s.mem, h, rfl, .inl rfl, unchanged_writes.toStage .b⟩
  case evRx =>
    obtain ⟨b, x, v, h, ⟨-, rfl⟩ | ⟨p, hd, hp, rfl⟩⟩ := execEvRx_next e
    · exact ⟨b, x, v, _, s.mem, h, rfl, .inl rfl, (countDown_writes (.inr rfl)).toStage .b⟩
    · exact ⟨b, x, v, _, _, h, rfl, .inr ⟨rfl, by omega, p, _, hp, rfl⟩, evRx_writes.toStage .b⟩
  case postBufEn =>
    obtain ⟨b, x, v, h, rfl⟩ := execPostBufEn_next e
    exact ⟨b, x, v, _, s.mem, h, rfl, .inl rfl, (setItbufen_writes (.inl ⟨rfl, rfl⟩)).toStage .c⟩
  case postBufDis =>
    obtain ⟨b, x, v, h, rfl⟩ := execPostBufDis_next e
    exact ⟨b, x, v, _, s.mem, h, rfl, .inl rfl, (setItbufen_writes (.inr ⟨rfl, rfl⟩)).toStage .c⟩
  case postBtf =>
    obtain ⟨b, x, v, h, rfl⟩ := execPostBtf_next e
    exact ⟨b, x, v, _, s.mem, h, rfl, .inl rfl, unchanged_writes.toStage .sub⟩
  case postBtfSplice =>
    obtain ⟨b, x, v, m, h, -, rfl⟩ := execPostBtfSplice_next e
    exact ⟨b, x, v, _, s.mem, h, rfl, .inl rfl, (spliceMessage_writes (.inr rfl)).toStage .d⟩
  case postBtfRestart =>
    obtain ⟨b, x, v, h, rfl⟩ := execPostBtfRestart_next e
    exact ⟨b, x, v, _, s.mem, h, rfl, .inl rfl, restart_writes.toStage .d⟩
  case postBtfStop =>
    obtain ⟨b, x, v, h, rfl⟩ := execPostBtfStop_next e
    exact ⟨b, x, v, _, s.mem, h, rfl, .inl rfl, stop_writes.toStage .d⟩
  case postBtfNone =>
    obtain ⟨b, x, v, h, rfl⟩ := execPostBtfNone_next e
    exact ⟨b, x, v, _, s.mem, h, rfl, .inl rfl, unchanged_writes.toStage .d⟩
  case postErr =>
    obtain ⟨b, x, v, h, rfl⟩ := execPostErr_next e
    exact ⟨b, x, v, _, s.mem, h, rfl, .inl rfl, err_writes.toStage .fin⟩
  case postLatch =>
    obtain ⟨b, x, v, h, rfl⟩ := execPostLatch_next e
    exact ⟨b, x, v, _, s.mem, h, rfl, .inl rfl, latch_writes⟩
  all_goals cases hi

/-! ### The orchestrator -/

theorem InTxn.unique {t t' : Nat} {x x' : Txn} {y y' : Bus} (h : InTxn s t x y) (h' : InTxn s t' x' y') :
    t' = t ∧ x' = x ∧ y' = y := by
  obtain ⟨ht, hx, hy⟩ := h
  obtain ⟨ht', hx', hy'⟩ := h'
  obtain rfl : t' = t := by simpa [ht] using ht'.symm
  obtain rfl : x' = x := by simpa [hx] using hx'.symm
  exact ⟨rfl, rfl, by simpa [hy] using hy'.symm⟩

/-- What an ORCH step or a CLK mode writes of its bus, and which of them writes it (42_transaction_orchestrator.md,
40_clock_config.md). -/
structure OrchestratorWrites (i : Instr) (y y' : Bus) : Prop where
  others : y' = { y with
    lock := y'.lock, waiters := y'.waiters, hs := y'.hs, sig := y'.sig, cr1 := y'.cr1, cr2 := y'.cr2, inv := y'.inv
    msgv := y'.msgv, msgc := y'.msgc, dcnt := y'.dcnt, ptr := y'.ptr, flags := y'.flags, trLog := y'.trLog
    trIsr := y'.trIsr, status := y'.status, sr1 := y'.sr1, ccr := y'.ccr, trise := y'.trise, oar1 := y'.oar1 }
  cr1_bits : y'.cr1 &&& ~~~0x1700#16 = y.cr1 &&& ~~~0x1700#16
  cr2_bits : y'.cr2 &&& ~~~0x0700#16 = y.cr2 &&& ~~~0x0700#16
  legal : y.regsLegal = true → y'.regsLegal = true
  posted : y'.hs = y.hs ∧ y'.sig = y.sig ∨ y'.hs ≠ .done
  lock : y'.lock ≠ y.lock ∨ y'.waiters ≠ y.waiters → i = .orchLock ∨ i = .orchUnlock
  wait : y'.hs ≠ y.hs ∨ y'.sig ≠ y.sig ∨ y'.cr2 ≠ y.cr2 ∨ y'.inv ≠ y.inv → i = .orchWait
  cursor : y'.msgv ≠ y.msgv ∨ y'.msgc ≠ y.msgc ∨ y'.dcnt ≠ y.dcnt ∨ y'.ptr ≠ y.ptr ∨ y'.flags ≠ y.flags
    ∨ y'.trLog ≠ y.trLog → i = .orchInstall
  trIsr : y'.trIsr ≠ y.trIsr → i = .orchInstall ∨ i = .orchWait
  status : y'.status ≠ y.status → i = .orchStart
  sr1 : y'.sr1 ≠ y.sr1 → i = .orchClrErr
  cr1 : y'.cr1 ≠ y.cr1 → i = .orchClrReq ∨ isClk i = true ∨ i = .orchStart ∨ i = .orchTimeout
  timing : y'.ccr ≠ y.ccr ∨ y'.trise ≠ y.trise ∨ y'.oar1 ≠ y.oar1 → isClk i = true

/-- What an ORCH step or a CLK mode of thread `t`, inside the transaction `x`, leaves of the machine: its bus is then `y'`. -/
structure OrchestratorLeaves (s : State) (i : Instr) (t : Nat) (x : Txn) (y' : Bus) (s' : State) : Prop where
  others : s' = { s with
    buses := s'.buses, threads := s'.threads, xperiphEn := s'.xperiphEn, sink := s'.sink }
  bus : ∀ c, s'.bus? c = if c = x.bus then some y' else s.bus? c
  threads : ∀ u, u ≠ t → s'.thread u = s.thread u
  inside : i ≠ .orchUnlock → ∃ x', (s'.thread t).txn = some x' ∧ x'.bus = x.bus
  xperiph : s'.xperiphEn ≠ s.xperiphEn → i = .orchXperiphOff ∨ i = .orchXperiphOn
  sink : s'.sink ≠ s.sink → i = .orchWaitStop ∨ i = .orchWaitStop2 ∨ i = .orchTimeout ∨ i = .orchDump

section Leaves

variable {t : Nat} {x z : Txn} {y y' : Bus} {v : Bool} {k : List SinkItem}

theorem leaves_putTxn (h : InTxn s t x y) (hz : z.bus = x.bus)
    (hv : v ≠ s.xperiphEn → i = .orchXperiphOff ∨ i = .orchXperiphOn)
    (hk : k ≠ s.sink → i = .orchWaitStop ∨ i = .orchWaitStop2 ∨ i = .orchTimeout ∨ i = .orchDump) :
    OrchestratorLeaves s i t x y ({ s with xperiphEn := v, sink := k }.putTxn t z) where
  others := rfl
  bus c := by
    obtain ⟨-, -, hy⟩ := h
    split
    · next e => rw [e]; exact hy
    · rfl
  threads u hu := by rw [State.thread_putTxn, if_neg hu]; rfl
  inside _ := ⟨z, State.thread_putTxn_self _ t z, hz⟩
  xperiph := hv
  sink := hk

theorem leaves_putBus_putTxn (hz : z.bus = x.bus)
    (hk : k ≠ s.sink → i = .orchWaitStop ∨ i = .orchWaitStop2 ∨ i = .orchTimeout ∨ i = .orchDump) :
    OrchestratorLeaves s i t x y' (({ s with sink := k }.putBus x.bus y').putTxn t z) where
  others := rfl
  bus c := State.bus?_putBus s x.bus c y'
  threads u hu := by rw [State.thread_putTxn, if_neg hu]; rfl
  inside _ := ⟨z, State.thread_putTxn_self _ t z, hz⟩
  xperiph hx := absurd rfl hx
  sink := hk

theorem leaves_putBus (h : InTxn s t x y) : OrchestratorLeaves s i t x y' (s.putBus x.bus y') where
  others := rfl
  bus c := State.bus?_putBus s x.bus c y'
  threads _ _ := rfl
  inside _ := ⟨x, h.2.1, rfl⟩
  xperiph hx := absurd rfl hx
  sink hk := absurd rfl hk

theorem leaves_self (h : InTxn s t x y) : OrchestratorLeaves s i t x y s where
  others := rfl
  bus c := by
    obtain ⟨-, -, hy⟩ := h
    split
    · next e => rw [e]; exact hy
    · rfl
  threads _ _ := rfl
  inside _ := ⟨x, h.2.1, rfl⟩
  xperiph hx := absurd rfl hx
  sink hk := absurd rfl hk

theorem leaves_waitStop {n : Nat} (hi : i = .orchWaitStop ∨ i = .orchWaitStop2) (h : InTxn s t x y)
    (e : waitStop s t x y n = .next s') : OrchestratorLeaves s i t x y s' := by
  have hk : s.sink ++ [.stopPending x.bus] ≠ s.sink →
      i = .orchWaitStop ∨ i = .orchWaitStop2 ∨ i = .orchTimeout ∨ i = .orchDump := fun _ => by tauto
  obtain rfl | rfl | rfl := waitStop_next e
  · exact leaves_putTxn (v := s.xperiphEn) (k := s.sink) h rfl (absurd rfl) (absurd rfl)
  · exact leaves_putTxn (v := s.xperiphEn) h rfl (absurd rfl) hk
  · exact leaves_putTxn (v := s.xperiphEn) (k := s.sink) h rfl (absurd rfl) (absurd rfl)

theorem leaves_unlock {r : ErrorKind} :
    OrchestratorLeaves s .orchUnlock t x y' ((s.putBus x.bus y').raise t r) where
  others := rfl
  bus c := State.bus?_putBus s x.bus c y'
  threads u hu := by rw [State.thread_raise, if_neg hu]; rfl
  inside hi := absurd rfl hi
  xperiph hx := absurd rfl hx
  sink hk := absurd rfl hk

end Leaves

/-! Legal registers -/

theorem modifyBits_and_eq_zero {v clr set k : Half} (hv : v &&& k = 0#16) (hs : set &&& k = 0#16) :
    modifyBits v clr set &&& k = 0#16 := by
  have hclr : v &&& ~~~clr &&& k = 0#16 := by
    rw [BitVec.and_assoc, BitVec.and_comm (~~~clr), ← BitVec.and_assoc, hv, BitVec.zero_and]
  rw [modifyBits, BitVec.and_or_distrib_right, hclr, hs, BitVec.or_zero]

/-- A number below `2 ^ j` has no bit from `j` on. -/
theorem ofNat_and_eq_zero {n j : Nat} {k : Half} (hn : n < 2 ^ j) (hk : ∀ l < j, k.getLsbD l = false) :
    BitVec.ofNat 16 n &&& k = 0#16 := by
  ext l hl
  by_cases hj : l < j
  · simp [← BitVec.getLsbD_eq_getElem, hk l hj]
  · have hbit : n.testBit l = false :=
      Nat.testBit_lt_two_pow (hn.trans_le (Nat.pow_le_pow_right (by decide) (Nat.le_of_not_lt hj)))
    simp [← BitVec.getLsbD_eq_getElem, BitVec.getLsbD_ofNat, hbit]

theorem Bus.regsLegal_iff {x : Bus} : x.regsLegal = true ↔ x.cr1 &&& 0xF8FE#16 = 0#16 ∧ x.cr2 &&& 0xF8FF#16 = 0#16 ∧
    x.oar1 &&& 0xBFFF#16 = 0#16 ∧ x.oar2 = 0#16 ∧ x.ccr &&& 0x3000#16 = 0#16 ∧ x.trise &&& 0xFFC0#16 = 0#16 := by
  simp [Bus.regsLegal, and_assoc]

theorem regsLegal_modify_cr1 {y : Bus} {clr set : Half} (hs : set &&& 0xF8FE#16 = 0#16) (hy : y.regsLegal = true) :
    (y.modifyReg .cr1 clr set).regsLegal = true := by
  rw [Bus.regsLegal_iff] at hy ⊢
  obtain ⟨h1, hrest⟩ := hy
  exact ⟨modifyBits_and_eq_zero h1 hs, hrest⟩

/-- CLK leaves CR1 as it was, but for ACK where the line engine clears it (40_clock_config.md R141, R148). -/
theorem clkCr1_eq (v : Half) (drop : Bool) : clkCr1 v drop = if drop = true then v &&& ~~~CR1_ACK else v := by
  have restored (u : Half) : (u &&& ~~~CR1_PE) ||| (u &&& CR1_PE) = u := by
    rw [← BitVec.and_or_distrib_left, BitVec.or_comm]; exact BitVec.and_allOnes
  cases drop with
  | false =>
    simp only [clkCr1, modifyBits, Bool.false_eq_true, if_false, BitVec.or_zero, BitVec.and_assoc, BitVec.and_self]
    exact restored v
  | true =>
    have hpe : v &&& ~~~CR1_ACK &&& CR1_PE = v &&& CR1_PE := by
      rw [← modifyBits_clear, modifyBits_and (by decide) (by decide)]
    have hoff : v &&& ~~~CR1_PE &&& ~~~CR1_ACK &&& ~~~CR1_PE = v &&& ~~~CR1_ACK &&& ~~~CR1_PE := by
      rw [BitVec.and_assoc v, BitVec.and_comm (~~~CR1_PE) (~~~CR1_ACK), BitVec.and_assoc, BitVec.and_assoc,
        BitVec.and_self, BitVec.and_assoc]
    simp only [clkCr1, modifyBits, BitVec.or_zero, if_true]
    rw [hoff, ← hpe, restored]

section Updates

variable {y : Bus}

theorem keeps_writes : OrchestratorWrites i y y := by
  constructor <;> simp

theorem acquire_writes {t : Nat} : OrchestratorWrites .orchLock y (y.acquire t) := by
  constructor
  case others => rfl
  case legal => exact id
  all_goals simp

theorem release_writes {pick : Nat} : OrchestratorWrites .orchUnlock y (y.release pick) := by
  constructor
  case others => rfl
  case legal => exact id
  all_goals simp

theorem clrErr_writes : OrchestratorWrites .orchClrErr y (y.writeReg .sr1 0x0000#16) := by
  constructor
  case others => rfl
  case legal => exact id
  all_goals simp [Bus.writeReg]

theorem modify_cr1_writes {clr set : Half} (hc : clr &&& ~~~0x1700#16 = 0#16) (hs : set &&& ~~~0x1700#16 = 0#16)
    (hl : set &&& 0xF8FE#16 = 0#16) (hi : i = .orchClrReq ∨ i = .orchTimeout) :
    OrchestratorWrites i y (y.modifyReg .cr1 clr set) := by
  constructor
  case others => rfl
  case cr1_bits => exact modifyBits_and hc hs
  case legal => exact regsLegal_modify_cr1 hl
  case cr1 => intro _; tauto
  all_goals simp [Bus.modifyReg_cr1]

theorem start_writes :
    OrchestratorWrites .orchStart y ({ y with status := 0x00000000#32 }.modifyReg .cr1 0x0000#16 CR1_START) := by
  constructor
  case others => rfl
  case cr1_bits => exact modifyBits_and (by decide) (by decide)
  case legal => exact regsLegal_modify_cr1 (y := { y with status := 0x00000000#32 }) (by decide)
  all_goals simp [Bus.modifyReg_cr1]

theorem install_writes {p : MsgPtr} {n : Int} {on : Bool} :
    OrchestratorWrites .orchInstall y ((y.install p n).resetTrace on) := by
  constructor
  case others => rfl
  case legal => exact id
  all_goals simp

theorem programClock_legal {tm : Timing} {drop : Bool} (hb : tm.modeBits &&& 0x3000#16 = 0#16) (hd : tm.div ≤ 4095)
    (ht : tm.trise ≤ 63) (hy : y.regsLegal = true) : (y.programClock tm drop).regsLegal = true := by
  rw [Bus.regsLegal_iff] at hy ⊢
  obtain ⟨h1, h2, -, h4, -, -⟩ := hy
  refine ⟨?_, h2, (by decide : OAR1_ONE &&& 0xBFFF#16 = 0#16), h4, ?_, ofNat_and_eq_zero (j := 6) (by omega) (by decide)⟩
  · rw [Bus.programClock_cr1, clkCr1_eq]
    split
    · rw [← modifyBits_clear]; exact modifyBits_and_eq_zero h1 (by decide)
    · exact h1
  · have hdiv : BitVec.ofNat 16 tm.div &&& 0x3000#16 = 0#16 := ofNat_and_eq_zero (j := 12) (by omega) (by decide)
    rw [Bus.programClock_ccr, Timing.ccr, BitVec.and_or_distrib_right, hb, hdiv, BitVec.or_zero]

theorem programClock_writes {tm : Timing} {drop : Bool} (hi : isClk i = true)
    (hb : tm.modeBits &&& 0x3000#16 = 0#16) (hd : tm.div ≤ 4095) (ht : tm.trise ≤ 63) :
    OrchestratorWrites i y (y.programClock tm drop) := by
  constructor
  case others => rfl
  case cr1_bits =>
    rw [Bus.programClock_cr1, clkCr1_eq, ← modifyBits_clear y.cr1]
    exact ite_modifyBits_and (by decide) (by decide)
  case legal => exact programClock_legal hb hd ht
  all_goals simp [hi]

theorem armAndMark_writes : OrchestratorWrites .orchWait y y.armAndMark := by
  constructor
  case others => rfl
  case cr2_bits => exact modifyBits_and (by decide) (by decide)
  case legal =>
    rw [Bus.regsLegal_iff, Bus.regsLegal_iff]
    exact fun ⟨h1, h2, hrest⟩ => ⟨h1, modifyBits_and_eq_zero h2 (by decide), hrest⟩
  all_goals simp

theorem poll_writes {on : Bool} (hy : y.hs ≠ .done) : OrchestratorWrites .orchWait y (y.enterInvocation on) := by
  constructor
  case others => rfl
  case legal => exact id
  all_goals simp [hy]

theorem firstPoll_writes {on : Bool} :
    OrchestratorWrites .orchWait y ({ y with hs := .waiting }.enterInvocation on) := by
  constructor
  case others => rfl
  case legal => exact id
  all_goals simp

/-- The wait goes on, whether or not it has taken a post. -/
theorem goOn_writes {n : Nat} (hy : y.hs ≠ .done) : OrchestratorWrites .orchWait y { y with sig := n } := by
  constructor
  case others => rfl
  case legal => exact id
  all_goals simp [hy]

theorem disarm_writes {n : Nat} {interrupt : Bool} :
    OrchestratorWrites .orchWait y ({ y with sig := n }.disarm interrupt) := by
  constructor
  case others => rfl
  case cr2_bits => exact ite_modifyBits_and (by decide) (by decide)
  case legal =>
    rw [Bus.regsLegal_iff, Bus.regsLegal_iff]
    refine fun ⟨h1, h2, hrest⟩ => ⟨h1, ?_, hrest⟩
    simp only [Bus.disarm_fields]
    split
    · exact modifyBits_and_eq_zero h2 (by decide)
    · exact h2
  all_goals simp

end Updates

/-- Each of the three modes within the contract (40_clock_config.md R142 to R145, R151). -/
theorem programClock_writes_of_mode {mode : Nat → Nat → Timing} {pclk f : Nat} {y : Bus} {drop : Bool}
    (hi : isClk i = true) (hm : mode = Timing.std ∨ mode = Timing.fast2 ∨ mode = Timing.fast16_9)
    (hc : inContract f (mode pclk f) = true) : OrchestratorWrites i y (y.programClock (mode pclk f) drop) := by
  simp only [inContract, Bool.and_eq_true, decide_eq_true_eq] at hc
  obtain ⟨⟨-, hdiv⟩, htrise⟩ := hc
  refine programClock_writes hi ?_ hdiv htrise
  obtain rfl | rfl | rfl := hm
  · exact (by decide : 0x0000#16 &&& 0x3000#16 = 0#16)
  · exact (by decide : CCR_FS &&& 0x3000#16 = 0#16)
  · exact (by decide : (CCR_FS ||| CCR_DUTY) &&& 0x3000#16 = 0#16)

theorem runClk_leaves {mode : Nat → Nat → Timing} (hi : isClk i = true)
    (hm : mode = Timing.std ∨ mode = Timing.fast2 ∨ mode = Timing.fast16_9) (e : runClk mode s = .next s') :
    ∃ t x y y', InTxn s t x y ∧ OrchestratorLeaves s i t x y' s' ∧ OrchestratorWrites i y y' := by
  obtain ⟨t, x, y, d, h, -, hc, rfl⟩ := runClk_next e
  exact ⟨t, x, y, _, h, leaves_putBus h, programClock_writes_of_mode hi hm hc⟩

/-- Thread `t` is inside the wait of step 9 on bus `b`. -/
def Waits (s : State) (t b : Nat) : Prop :=
  ∃ x, (s.thread t).txn = some x ∧ x.bus = b ∧ x.step = 9 ∧ x.wait ≠ .fresh

/-- After an attempt of step 9 the thread waits, with the enables armed or as they were, or the bus is disarmed. -/
def WaitsOrDisarmed (s : State) (t : Nat) (x : Txn) (y y' : Bus) (s' : State) : Prop :=
  ((x.step = 9 → Waits s' t x.bus) ∧ (y'.cr2 = y.cr2 ∨ s.interruptMode = true)) ∨
    ∃ n, y' = { y with sig := n }.disarm s.interruptMode

/-- How step 9 goes on: it begins, stays with or without a post taken, polls again, or ends. -/
theorem execOrchWait_leaves (e : execOrchWait s = .next s') :
    ∃ t x y y', InTxn s t x y ∧ OrchestratorLeaves s .orchWait t x y' s' ∧ OrchestratorWrites .orchWait y y' ∧
      WaitsOrDisarmed s t x y y' s' := by
  obtain ⟨t, x, y, h, ⟨-, hm, rfl⟩ | ⟨-, -, rfl⟩ | ⟨d, hw, e⟩ | ⟨t0, hw, e⟩⟩ := execOrchWait_next e
  · exact ⟨t, x, y, _, h, leaves_putBus_putTxn (k := s.sink) rfl (absurd rfl), armAndMark_writes,
      .inl ⟨fun h9 => ⟨_, State.thread_putTxn_self _ t _, rfl, h9, by simp⟩, .inr hm⟩⟩
  · exact ⟨t, x, y, _, h, leaves_putBus_putTxn (k := s.sink) rfl (absurd rfl), firstPoll_writes,
      .inl ⟨fun h9 => ⟨_, State.thread_putTxn_self _ t _, rfl, h9, by simp⟩, .inl rfl⟩⟩
  · have waits : x.step = 9 → Waits s t x.bus := fun h9 => ⟨x, h.2.1, rfl, h9, by simp [hw]⟩
    obtain ⟨y', hy', e⟩ | ⟨-, -, rfl⟩ | rfl := answerWait_next e
    · obtain ⟨n, rfl⟩ : ∃ n, y' = { y with sig := n } := by
        obtain rfl | ⟨-, rfl⟩ := hy'
        · exact ⟨y'.sig, rfl⟩
        · exact ⟨_, rfl⟩
      obtain ⟨-, rfl⟩ | ⟨hd, rfl⟩ := recheck_next e
      · exact ⟨t, x, y, _, h, leaves_putBus_putTxn (k := s.sink) rfl (absurd rfl), disarm_writes, .inr ⟨n, rfl⟩⟩
      · exact ⟨t, x, y, _, h, leaves_putBus h, goOn_writes hd, .inl ⟨waits, .inl rfl⟩⟩
    · exact ⟨t, x, y, _, h, leaves_putBus_putTxn (k := s.sink) rfl (absurd rfl), disarm_writes, .inr ⟨y.sig, rfl⟩⟩
    · exact ⟨t, x, y, _, h, leaves_self h, keeps_writes, .inl ⟨waits, .inl rfl⟩⟩
  · have waits : x.step = 9 → Waits s t x.bus := fun h9 => ⟨x, h.2.1, rfl, h9, by simp [hw]⟩
    obtain ⟨-, rfl⟩ | ⟨-, -, rfl⟩ | ⟨hd, rfl⟩ := pollAgain_next e
    · exact ⟨t, x, y, _, h, leaves_putBus_putTxn (k := s.sink) rfl (absurd rfl), disarm_writes, .inr ⟨y.sig, rfl⟩⟩
    · exact ⟨t, x, y, _, h, leaves_putBus_putTxn (k := s.sink) rfl (absurd rfl), disarm_writes, .inr ⟨y.sig, rfl⟩⟩
    · exact ⟨t, x, y, _, h, leaves_putBus h, poll_writes hd, .inl ⟨waits, .inl rfl⟩⟩

/-- Every ORCH step and CLK mode, by what it leaves of the machine and writes of its bus. -/
theorem orchestrator_next (hi : isOrchestrator i = true) (e : exec i s = .next s') :
    ∃ t x y y', InTxn s t x y ∧ OrchestratorLeaves s i t x y' s' ∧ OrchestratorWrites i y y' := by
  cases i
  case orchLock =>
    obtain ⟨t, x, y, h, ⟨-, rfl⟩ | ⟨-, rfl⟩⟩ := execOrchLock_next e
    · exact ⟨t, x, y, _, h, leaves_putBus_putTxn (k := s.sink) rfl (absurd rfl), acquire_writes⟩
    · exact ⟨t, x, y, _, h, leaves_putBus h, acquire_writes⟩
  case orchXperiphOff =>
    obtain ⟨t, x, y, h, ⟨-, rfl⟩ | ⟨-, rfl⟩⟩ := execOrchXperiphOff_next e
    · exact ⟨t, x, y, y, h, leaves_putTxn (k := s.sink) h rfl (fun _ => .inl rfl) (absurd rfl), keeps_writes⟩
    · exact ⟨t, x, y, y, h, leaves_putTxn (v := s.xperiphEn) (k := s.sink) h rfl (absurd rfl) (absurd rfl), keeps_writes⟩
  case orchWaitStop =>
    obtain ⟨t, x, y, h, e⟩ := execOrchWaitStop_next e
    exact ⟨t, x, y, y, h, leaves_waitStop (.inl rfl) h e, keeps_writes⟩
  case orchClrErr =>
    obtain ⟨t, x, y, h, rfl⟩ := execOrchClrErr_next e
    exact ⟨t, x, y, _, h, leaves_putBus_putTxn (k := s.sink) rfl (absurd rfl), clrErr_writes⟩
  case orchClrReq =>
    obtain ⟨t, x, y, h, rfl⟩ := execOrchClrReq_next e
    exact ⟨t, x, y, _, h, leaves_putBus_putTxn (k := s.sink) rfl (absurd rfl),
      modify_cr1_writes (by decide) (by decide) (by decide) (.inl rfl)⟩
  case orchInstall =>
    obtain ⟨t, x, y, h, rfl⟩ := execOrchInstall_next e
    exact ⟨t, x, y, _, h, leaves_putBus_putTxn (k := s.sink) rfl (absurd rfl), install_writes⟩
  case orchClk =>
    obtain ⟨t, x, y, u, h, hu, rfl⟩ := execOrchClk_next e
    obtain ⟨t', x', y', d, mode, h', -, hm, hc, rfl⟩ := clk_next hu
    obtain ⟨rfl, rfl, rfl⟩ := h.unique h'
    exact ⟨_, _, _, _, h, leaves_putBus_putTxn (k := s.sink) rfl (absurd rfl), programClock_writes_of_mode rfl hm hc⟩
  case orchStart =>
    obtain ⟨t, x, y, h, rfl⟩ := execOrchStart_next e
    exact ⟨t, x, y, _, h, leaves_putBus_putTxn (k := s.sink) rfl (absurd rfl), start_writes⟩
  case orchWait =>
    obtain ⟨t, x, y, y', h, l, w, -⟩ := execOrchWait_leaves e
    exact ⟨t, x, y, y', h, l, w⟩
  case orchTimeout =>
    obtain ⟨t, x, y, h, rfl⟩ := execOrchTimeout_next e
    exact ⟨t, x, y, _, h, leaves_putBus_putTxn rfl (fun _ => .inr (.inr (.inl rfl))),
      modify_cr1_writes (by decide) (by decide) (by decide) (.inr rfl)⟩
  case orchMask =>
    obtain ⟨t, x, y, h, rfl⟩ := execOrchMask_next e
    exact ⟨t, x, y, y, h, leaves_putTxn (v := s.xperiphEn) (k := s.sink) h rfl (absurd rfl) (absurd rfl), keeps_writes⟩
  case orchClassify =>
    obtain ⟨t, x, y, h, rfl⟩ := execOrchClassify_next e
    exact ⟨t, x, y, y, h, leaves_putTxn (v := s.xperiphEn) (k := s.sink) h rfl (absurd rfl) (absurd rfl), keeps_writes⟩
  case orchBusyCheck =>
    obtain ⟨t, x, y, h, rfl⟩ := execOrchBusyCheck_next e
    exact ⟨t, x, y, y, h, leaves_putTxn (v := s.xperiphEn) (k := s.sink) h rfl (absurd rfl) (absurd rfl), keeps_writes⟩
  case orchDump =>
    obtain ⟨t, x, y, h, rfl⟩ := execOrchDump_next e
    rw [State.dumpTrace_eq]
    exact ⟨t, x, y, y, h, leaves_putTxn (v := s.xperiphEn) h rfl (absurd rfl) (fun _ => .inr (.inr (.inr rfl))),
      keeps_writes⟩
  case orchWaitStop2 =>
    obtain ⟨t, x, y, h, ⟨-, e⟩ | ⟨-, rfl⟩⟩ := execOrchWaitStop2_next e
    · exact ⟨t, x, y, y, h, leaves_waitStop (.inr rfl) h e, keeps_writes⟩
    · exact ⟨t, x, y, y, h, leaves_putTxn (v := s.xperiphEn) (k := s.sink) h rfl (absurd rfl) (absurd rfl), keeps_writes⟩
  case orchXperiphOn =>
    obtain ⟨t, x, y, h, ⟨-, rfl⟩ | ⟨-, rfl⟩⟩ := execOrchXperiphOn_next e
    · exact ⟨t, x, y, y, h, leaves_putTxn (k := s.sink) h rfl (fun _ => .inr rfl) (absurd rfl), keeps_writes⟩
    · exact ⟨t, x, y, y, h, leaves_putTxn (v := s.xperiphEn) (k := s.sink) h rfl (absurd rfl) (absurd rfl), keeps_writes⟩
  case orchUnlock =>
    obtain ⟨t, x, y, h, rfl⟩ := execOrchUnlock_next e
    exact ⟨t, x, y, _, h, leaves_unlock, release_writes⟩
  case clkStd => exact runClk_leaves rfl (.inl rfl) e
  case clkFast2 => exact runClk_leaves rfl (.inr (.inl rfl)) e
  case clkFast16_9 => exact runClk_leaves rfl (.inr (.inr rfl)) e
  all_goals cases hi

/-! ### The host -/

/-- A bus after an OPEN of it (43_host_operations.md R241). -/
def Bus.opened (x : Bus) (interrupt : Bool) : Bus :=
  let y := if x.refs = 0 then x.powerUp interrupt else x
  { y with refs := y.refs + 1 }

/-- A bus after a CLOSE of one of its handles (R243). -/
def Bus.closed (x : Bus) (interrupt : Bool) : Bus :=
  let y := { x with refs := x.refs - 1 }
  if y.refs = 0 then y.powerDown interrupt else y

section HostBus

variable {x : Bus} {interrupt : Bool}

@[simp] theorem Bus.opened_fields : (x.opened interrupt).base = x.base ∧ (x.opened interrupt).refs = x.refs + 1
    ∧ (x.opened interrupt).lock = x.lock ∧ (x.opened interrupt).waiters = x.waiters
    ∧ (x.opened interrupt).hs = x.hs ∧ (x.opened interrupt).msgv = x.msgv ∧ (x.opened interrupt).msgc = x.msgc
    ∧ (x.opened interrupt).dcnt = x.dcnt ∧ (x.opened interrupt).ptr = x.ptr ∧ (x.opened interrupt).flags = x.flags
    ∧ (x.opened interrupt).status = x.status ∧ (x.opened interrupt).sig = x.sig
    ∧ (x.opened interrupt).trLog = x.trLog ∧ (x.opened interrupt).trIsr = x.trIsr
    ∧ (x.opened interrupt).txLog = x.txLog ∧ (x.opened interrupt).inv = x.inv := by
  unfold Bus.opened
  split <;> simp

@[simp] theorem Bus.closed_fields : (x.closed interrupt).base = x.base ∧ (x.closed interrupt).refs = x.refs - 1
    ∧ (x.closed interrupt).lock = x.lock ∧ (x.closed interrupt).waiters = x.waiters
    ∧ (x.closed interrupt).hs = x.hs ∧ (x.closed interrupt).msgv = x.msgv ∧ (x.closed interrupt).msgc = x.msgc
    ∧ (x.closed interrupt).dcnt = x.dcnt ∧ (x.closed interrupt).ptr = x.ptr ∧ (x.closed interrupt).flags = x.flags
    ∧ (x.closed interrupt).status = x.status ∧ (x.closed interrupt).sig = x.sig
    ∧ (x.closed interrupt).trLog = x.trLog ∧ (x.closed interrupt).trIsr = x.trIsr
    ∧ (x.closed interrupt).txLog = x.txLog ∧ (x.closed interrupt).inv = x.inv := by
  unfold Bus.closed
  dsimp only
  split <;> simp

/-- An OPEN leaves the enables of a bus, or clears them. -/
theorem Bus.opened_cr2 : (x.opened interrupt).cr2 = x.cr2 ∨ (x.opened interrupt).cr2 = 0x0000#16 := by
  unfold Bus.opened
  split <;> simp

theorem Bus.closed_cr2 : (x.closed interrupt).cr2 = x.cr2 ∨ (x.closed interrupt).cr2 = 0x0000#16 := by
  unfold Bus.closed
  dsimp only
  split <;> simp

end HostBus

/-- What a host command of thread `t` leaves of the machine: a bus opened, a handle closed, a handle configured, or the
thread alone moved, to no transaction or to step 1 of one. -/
inductive CommandLeaves (s : State) (i : Instr) (t : Nat) : State → Prop where
  | opened (b : Nat) (x : Bus) (op : i = .openBus (b : Int)) (bus : s.bus? b = some x) :
    CommandLeaves s i t (s.openOn t b x)
  | closed (h : Nat) (d : Handle) (x : Bus) (op : i = .closeHandle (some h)) (live : s.handle? h = some d)
      (bus : s.bus? d.bus = some x) : CommandLeaves s i t (s.closeOn t h d.bus x)
  | configured (h : Nat) (d d' : Handle)
      (op : (∃ hz, i = .setFreq (some h) hz) ∨ ∃ a n, i = .setAddr (some h) a n) (live : s.handle? h = some d)
      (bus : d'.bus = d.bus) : CommandLeaves s i t ((s.putHandle h d').raise t .ok)
  | moved (y : Thread) (txn : y.txn = none ∨ ∃ k d p n, y.txn = some (Txn.start k d p n)) :
    CommandLeaves s i t (s.putThread t y)

/-- Every host command, by what it leaves. -/
theorem command_next (hi : formatOf i = .h) (e : exec i s = .next s') :
    ∃ t, CallerReady s t ∧ CommandLeaves s i t s' := by
  cases i
  case openBus b =>
    obtain ⟨t, hr, rfl | ⟨x, hb, -, -, hx, rfl⟩⟩ := execOpenBus_next e
    · exact ⟨t, hr, .moved _ (.inl rfl)⟩
    · exact ⟨t, hr, .opened _ x (congrArg Instr.openBus (Int.toNat_of_nonneg (by omega)).symm) hx⟩
  case closeHandle h =>
    obtain ⟨t, n, d, x, hr, rfl, hd, hx, rfl⟩ := execCloseHandle_next e
    exact ⟨t, hr, .closed n d x rfl hd hx⟩
  case setFreq h hz =>
    obtain ⟨t, n, d, hr, rfl, hd, rfl | rfl⟩ := execSetFreq_next e
    · exact ⟨t, hr, .moved _ (.inl rfl)⟩
    · exact ⟨t, hr, .configured n d _ (.inl ⟨hz, rfl⟩) hd rfl⟩
  case setAddr h a bits =>
    obtain ⟨t, n, d, hr, rfl, hd, rfl | rfl⟩ := execSetAddr_next e
    · exact ⟨t, hr, .moved _ (.inl rfl)⟩
    · exact ⟨t, hr, .configured n d _ (.inr ⟨a, bits, rfl⟩) hd rfl⟩
  case write =>
    obtain ⟨t, k, d, hr, -, -, -, rfl⟩ := execWrite_next e
    exact ⟨t, hr, .moved _ (.inr ⟨k, d, _, _, rfl⟩)⟩
  case read =>
    obtain ⟨t, k, d, hr, -, -, -, rfl⟩ := execRead_next e
    exact ⟨t, hr, .moved _ (.inr ⟨k, d, _, _, rfl⟩)⟩
  case writeRead =>
    obtain ⟨t, k, d, hr, -, -, -, rfl⟩ := execWriteRead_next e
    exact ⟨t, hr, .moved _ (.inr ⟨k, d, _, _, rfl⟩)⟩
  case transfer =>
    obtain ⟨t, k, d, hr, -, -, -, rfl⟩ := execTransfer_next e
    exact ⟨t, hr, .moved _ (.inr ⟨k, d, _, _, rfl⟩)⟩
  all_goals cases hi

theorem State.bus?_openOn (s : State) (t b c : Nat) (x : Bus) :
    (s.openOn t b x).bus? c = if c = b then some (x.opened s.interruptMode) else s.bus? c :=
  State.bus?_putBus s b c _

theorem State.bus?_closeOn (s : State) (t h b c : Nat) (x : Bus) :
    (s.closeOn t h b x).bus? c = if c = b then some (x.closed s.interruptMode) else s.bus? c :=
  State.bus?_putBus s b c _

/-- A command changes no thread but the caller. -/
theorem CommandLeaves.thread {t u : Nat} (h : CommandLeaves s i t s') (hu : u ≠ t) : s'.thread u = s.thread u := by
  cases h with
  | opened b x => exact (State.thread_putRet _ t u _).trans (if_neg hu)
  | closed h d x => exact (State.thread_raise _ t u _).trans (if_neg hu)
  | configured h d d' => exact (State.thread_raise _ t u _).trans (if_neg hu)
  | moved y => exact (State.thread_putThread _ t u y).trans (if_neg hu)

/-- The caller is then inside no transaction, or at step 1 of one. -/
theorem CommandLeaves.caller {t : Nat} (h : CommandLeaves s i t s') :
    (s'.thread t).txn = none ∨ ∃ k d p n, (s'.thread t).txn = some (Txn.start k d p n) := by
  cases h with
  | opened b x => exact .inl (congrArg Thread.txn (State.thread_putThread_self _ t _))
  | closed h d x => exact .inl (congrArg Thread.txn (State.thread_putThread_self _ t _))
  | configured h d d' => exact .inl (congrArg Thread.txn (State.thread_putThread_self _ t _))
  | moved y hy => rwa [State.thread_putThread_self]

/-- What a command does to a bus: nothing, an OPEN of it, or a CLOSE of one of its handles. -/
theorem CommandLeaves.bus {t b : Nat} {x : Bus} (h : CommandLeaves s i t s') (hx : s.bus? b = some x) :
    s'.bus? b = some x ∨ (i = .openBus (b : Int) ∧ s'.bus? b = some (x.opened s.interruptMode)) ∨
      ∃ h d, i = .closeHandle (some h) ∧ s.handle? h = some d ∧ d.bus = b ∧
        s'.bus? b = some (x.closed s.interruptMode) := by
  cases h with
  | opened c y hi hy =>
    rw [State.bus?_openOn]
    split
    · next e =>
      subst e
      obtain rfl : x = y := by simpa [hx] using hy
      exact .inr (.inl ⟨hi, rfl⟩)
    · exact .inl hx
  | closed h d y hi hd hy =>
    rw [State.bus?_closeOn]
    split
    · next e =>
      subst e
      obtain rfl : x = y := by simpa [hx] using hy
      exact .inr (.inr ⟨h, d, hi, hd, rfl, rfl⟩)
    · exact .inl hx
  | configured h d d' => exact .inl hx
  | moved y => exact .inl hx

/-- What a command changes of the machine beside its buses, handles and threads: nothing. -/
theorem CommandLeaves.others {t : Nat} (h : CommandLeaves s i t s') : s' = { s with
    buses := s'.buses, handles := s'.handles, nextHandle := s'.nextHandle, threads := s'.threads } := by
  cases h <;> rfl

/-- A command changes no handle but the one it creates or is given. -/
theorem CommandLeaves.handle {t : Nat} (hl : CommandLeaves s i t s') (h : Nat) : i = .closeHandle (some h) ∨
    h = s.nextHandle ∨ (∃ hz, i = .setFreq (some h) hz) ∨ (∃ a n, i = .setAddr (some h) a n) ∨
      s'.handle? h = s.handle? h := by
  cases hl with
  | opened b x =>
    by_cases e : h = s.nextHandle
    · exact .inr (.inl e)
    · exact .inr (.inr (.inr (.inr (kget_kput_ne e _))))
  | closed k d x hi =>
    by_cases e : h = k
    · exact .inl (e ▸ hi)
    · exact .inr (.inr (.inr (.inr (kget_kdel_ne e))))
  | configured k d d' hi =>
    by_cases e : h = k
    · subst e
      exact .inr (.inr (hi.imp_right .inl))
    · exact .inr (.inr (.inr (.inr (kget_kput_ne e _))))
  | moved y => exact .inr (.inr (.inr (.inr rfl)))

/-! ### The statements -/

theorem CallerReady.unique {t t' : Nat} (h : CallerReady s t) (h' : CallerReady s t') : t' = t := by
  simpa [h.1] using h'.1.symm

/-- Settles O28: what an action or a message leaves, and what it writes of its bus. -/
theorem sequencerFrame : Obligations.SequencerFrame := by
  intro i s s' b x v hi h e
  obtain ⟨b', x₀, v', x', mem, h', rfl, hm, w⟩ := sequencer_next hi e
  obtain ⟨rfl, rfl, rfl⟩ := h.unique h'
  refine ⟨rfl, rfl, rfl, rfl, rfl, rfl, rfl, rfl, rfl, rfl, rfl, rfl, fun c hc => State.bus?_putBus_ne hc x',
    fun a ha => ?_, x', State.bus?_putBus_self _ _ x', (congrArg Bus.base w.others :), (congrArg Bus.refs w.others :),
    (congrArg Bus.lock w.others :), (congrArg Bus.waiters w.others :), (congrArg Bus.oar1 w.others :),
    (congrArg Bus.oar2 w.others :),
    (congrArg Bus.dr w.others :), (congrArg Bus.sr2 w.others :), (congrArg Bus.ccr w.others :),
    (congrArg Bus.trise w.others :),
    (congrArg Bus.irqAttached w.others :), (congrArg Bus.irqEnabled w.others :), (congrArg Bus.trIsr w.others :), w.cr1_bits,
    w.cr2_bits, w.cr1, w.cr2, w.sr1, w.status, w.handshake, w.msgv, w.message, w.buffer, w.trLog, w.txLog⟩
  obtain rfl | ⟨hrx, hd, p, c, hp, rfl⟩ := hm
  · rfl
  · exact memRead_memWrite_ne (by rintro rfl; exact ha ⟨hrx, hd, hp⟩) c

/-- Settles O40: what an ORCH step or a CLK mode leaves, and what it writes of its bus. -/
theorem orchestratorFrame : Obligations.OrchestratorFrame := by
  intro i s s' t x y hi h e
  obtain ⟨t', x', y₀, y', h', l, w⟩ := orchestrator_next hi e
  obtain ⟨rfl, rfl, rfl⟩ := h.unique h'
  exact ⟨(congrArg State.cfg l.others :), (congrArg State.handles l.others :), (congrArg State.nextHandle l.others :),
    (congrArg State.mem l.others :), (congrArg State.now l.others :), (congrArg State.cur l.others :),
    (congrArg State.intr l.others :),
    (congrArg State.pick l.others :), (congrArg State.dropAck l.others :), (congrArg State.sched l.others :),
    fun a => (congrArg (fun u => memRead (State.mem u) a) l.others :), fun c hc => (l.bus c).trans (if_neg hc), l.threads,
    l.xperiph, l.sink, y', (l.bus _).trans (if_pos rfl), (congrArg Bus.base w.others :), (congrArg Bus.refs w.others :),
    (congrArg Bus.oar2 w.others :), (congrArg Bus.dr w.others :), (congrArg Bus.sr2 w.others :),
    (congrArg Bus.txLog w.others :),
    (congrArg Bus.irqAttached w.others :), (congrArg Bus.irqEnabled w.others :), w.cr1_bits, w.cr2_bits, w.lock, w.wait,
    w.cursor, w.trIsr, w.status, w.sr1, w.cr1, w.timing⟩

/-- Settles O18: what a command leaves of the machine, of the other threads and handles, and of each bus. -/
theorem commandFrame : Obligations.CommandFrame := by
  intro i s s' t hi h e
  obtain ⟨t', h', l⟩ := command_next hi e
  obtain rfl := h.unique h'
  refine ⟨(congrArg State.cfg l.others :), (congrArg State.mem l.others :), (congrArg State.now l.others :),
    (congrArg State.xperiphEn l.others :), (congrArg State.sink l.others :), (congrArg State.cur l.others :),
    (congrArg State.intr l.others :), (congrArg State.pick l.others :), (congrArg State.dropAck l.others :),
    (congrArg State.sched l.others :), fun u hu => l.thread hu, l.handle,
    fun a => (congrArg (fun u => memRead (State.mem u) a) l.others :), fun b x hx => ?_⟩
  obtain hx' | ⟨hop, hx'⟩ | ⟨h, d, hcl, hd, hb, hx'⟩ := l.bus hx
  · exact ⟨x, hx', by simp⟩
  · exact ⟨_, hx', by simp [hop]⟩
  · exact ⟨_, hx', by simp [hcl, hd, hb]⟩

end Sys2Proof.Machine

/-! SUPPORT. The invariants of the machine. First what one step can do to a bus; then each invariant, from what the operations
of the three formats leave. -/

namespace Sys2Proof.Machine

variable {s s' : State} {i : Instr}

/-! ### The format of a dispatched operation -/

theorem formatOf_of_decode_command {bs : List Byte} (h : decode (.command bs) = .ok i) : formatOf i = .h := by
  simp only [decode, decodeCommand] at h
  split at h
  · cases h
  · split at h
    · cases h
    · split at h
      · cases h
      · unfold commandOf at h
        split at h <;> cases h <;> rfl

theorem isOrchestrator_of_stepOf {n : Nat} (h : stepOf n = some i) : isOrchestrator i = true := by
  unfold stepOf at h
  split at h <;> cases h <;> rfl

theorem isSequencer_dispatchB (k : DispatchKey) : isSequencer (dispatchB k) = true := by
  unfold dispatchB dispatchC dispatchD
  split_ifs <;> rfl

theorem isSequencer_decodeAction (k : DispatchKey) : isSequencer (decodeAction k) = true := by
  unfold decodeAction
  split
  · unfold dispatchA
    split_ifs
    case neg => exact isSequencer_dispatchB k
    all_goals rfl
  · exact isSequencer_dispatchB k
  · unfold dispatchC dispatchD
    split_ifs <;> rfl
  · unfold dispatchSub
    split_ifs <;> rfl
  · unfold dispatchD
    split_ifs <;> rfl
  · rfl

/-- What a dispatched operation leaves: a command, an ORCH step with no invocation of its bus in progress, or an action. -/
theorem Dispatched.leaves (hd : Dispatched i s) (e : exec i s = .next s') :
    (∃ t, CallerReady s t ∧ CommandLeaves s i t s') ∨
    (∃ t x y y', InTxn s t x y ∧ y.inv = none ∧ stepOf x.step = some i ∧ OrchestratorLeaves s i t x y' s' ∧
      OrchestratorWrites i y y') ∨
    (∃ b x v x' mem, InInvocation s b x v ∧ s' = { s with mem := mem }.putBus b x' ∧
      (mem = s.mem ∨ ∃ p w, mem = memWrite s.mem p w) ∧ SequencerWrites s.interruptMode i x x') := by
  cases hd with
  | command t bs ready dec => exact .inl (command_next (formatOf_of_decode_command dec) e)
  | step t x y txn idle num =>
    obtain ⟨t', x', y₀, y', h', l, w⟩ := orchestrator_next (isOrchestrator_of_stepOf num) e
    obtain ⟨rfl, rfl, rfl⟩ := txn.unique h'
    exact .inr (.inl ⟨_, _, _, y', h', idle, num, l, w⟩)
  | action b x v k inv key dec polled =>
    obtain ⟨b', x₀, v', x', mem, h', hs, hm, w⟩ := sequencer_next (dec ▸ isSequencer_decodeAction k) e
    refine .inr (.inr ⟨b', x₀, v', x', mem, h', hs, hm.imp_right ?_, w⟩)
    rintro ⟨-, -, p, c, -, hmem⟩
    exact ⟨p, c, hmem⟩

/-! ### What a step does to a bus -/

/-- What only OPEN and CLOSE change of a bus, and the legality of its registers. -/
structure BusKept (x x' : Bus) : Prop where
  base : x'.base = x.base
  refs : x'.refs = x.refs
  pe : x'.cr1 &&& CR1_PE = x.cr1 &&& CR1_PE
  legal : x.regsLegal = true → x'.regsLegal = true

/-- What one step can do to a bus. -/
inductive BusStep (interrupt : Bool) (x : Bus) : Bus → Prop where
  | kept {x' : Bus} (h : BusKept x x') : BusStep interrupt x x'
  | opened : BusStep interrupt x (x.opened interrupt)
  | closed : BusStep interrupt x (x.closed interrupt)

/-- Registers that agree on a mask agree on every part of it. -/
theorem and_eq_of_subset {w : Nat} {a b m k : BitVec w} (h : a &&& m = b &&& m) (hk : m &&& k = k) :
    a &&& k = b &&& k := by
  rw [← hk, ← BitVec.and_assoc, h, BitVec.and_assoc]

theorem SequencerWrites.busKept {interrupt : Bool} {x x' : Bus} (w : SequencerWrites interrupt i x x') :
    BusKept x x' where
  base := (congrArg Bus.base w.others :)
  refs := (congrArg Bus.refs w.others :)
  pe := and_eq_of_subset w.cr1_bits (by decide)
  legal := by
    rw [Bus.regsLegal_iff, Bus.regsLegal_iff, and_eq_of_subset (k := 0xF8FE#16) w.cr1_bits (by decide),
      and_eq_of_subset (k := 0xF8FF#16) w.cr2_bits (by decide), (congrArg Bus.oar1 w.others :),
      (congrArg Bus.oar2 w.others :), (congrArg Bus.ccr w.others :), (congrArg Bus.trise w.others :)]
    exact id

theorem OrchestratorWrites.busKept {y y' : Bus} (w : OrchestratorWrites i y y') : BusKept y y' where
  base := (congrArg Bus.base w.others :)
  refs := (congrArg Bus.refs w.others :)
  pe := and_eq_of_subset w.cr1_bits (by decide)
  legal := w.legal

theorem BusKept.refl (x : Bus) : BusKept x x := ⟨rfl, rfl, rfl, id⟩

theorem enterInvocation_busKept (x : Bus) (on : Bool) : BusKept x (x.enterInvocation on) := ⟨rfl, rfl, rfl, id⟩

/-! ### The line engine (10_state.md R45) -/

/-- Where nothing is set and only bits of `p` are cleared, the bits outside `p` stay. -/
theorem and_eq_of_cleared {a b p k : Half} (hset : b &&& ~~~a = 0#16) (hclr : a &&& ~~~b &&& ~~~p = 0#16)
    (hk : p &&& k = 0#16) : b &&& k = a &&& k := by
  ext l hl
  have hset : (b &&& ~~~a)[l] = false := by simp [hset]
  have hclr : (a &&& ~~~b &&& ~~~p)[l] = false := by simp [hclr]
  have hk : (p &&& k)[l] = false := by simp [hk]
  simp only [BitVec.getElem_and, BitVec.getElem_not] at hset hclr hk ⊢
  revert hset hclr hk
  generalize a[l] = va, b[l] = vb, p[l] = vp, k[l] = vk
  revert va vb vp vk
  decide

/-- Clearing some of the bits of `p` sets nothing and clears nothing else. -/
theorem clear_some (a m p : Half) : (a &&& ~~~(m &&& p)) &&& ~~~a = 0#16 ∧
    a &&& ~~~(a &&& ~~~(m &&& p)) &&& ~~~p = 0#16 := by
  constructor
  · rw [BitVec.and_comm a, BitVec.and_assoc, BitVec.and_not_self]; exact BitVec.and_zero
  · ext l hl
    simp only [BitVec.getElem_and, BitVec.getElem_not, BitVec.getElem_zero]
    generalize a[l] = va, m[l] = vm, p[l] = vp
    revert va vm vp
    decide

/-- Clearing just the bits that are to go gives the value that is wanted. -/
theorem clear_rest {a b p : Half} (hset : b &&& ~~~a = 0#16) (hclr : a &&& ~~~b &&& ~~~p = 0#16) :
    a &&& ~~~((a &&& ~~~b) &&& p) = b := by
  ext l hl
  have hset : (b &&& ~~~a)[l] = false := by simp [hset]
  have hclr : (a &&& ~~~b &&& ~~~p)[l] = false := by simp [hclr]
  simp only [BitVec.getElem_and, BitVec.getElem_not] at hset hclr ⊢
  revert hset hclr
  generalize a[l] = va, b[l] = vb, p[l] = vp
  revert va vb vp
  decide

theorem LineEngineMay.of_cr1_eq {x y : Bus} (h : y = { x with sr1 := y.sr1, sr2 := y.sr2, dr := y.dr }) :
    LineEngineMay x y := by
  have hcr1 : y.cr1 = x.cr1 := (congrArg Bus.cr1 h :)
  refine ⟨h.trans (by rw [hcr1]), ?_, ?_⟩
  · rw [hcr1, BitVec.and_not_self]; rfl
  · rw [hcr1, BitVec.and_not_self]; exact BitVec.zero_and

theorem LineEngineMay.refl (x : Bus) : LineEngineMay x x := .of_cr1_eq rfl

theorem lineClear_may (x : Bus) (m : Half) : LineEngineMay x (x.lineClear m) :=
  ⟨rfl, clear_some x.cr1 m (clearableCr1 x.cr1)⟩

theorem LineEngineMay.busKept {x y : Bus} (h : LineEngineMay x y) : BusKept x y := by
  obtain ⟨hy, hset, hclr⟩ := h
  have hpe : clearableCr1 x.cr1 &&& CR1_PE = 0#16 := by
    unfold clearableCr1
    split <;> decide
  refine ⟨(congrArg Bus.base hy :), (congrArg Bus.refs hy :), and_eq_of_cleared hset hclr hpe, ?_⟩
  rw [hy, Bus.regsLegal_iff, Bus.regsLegal_iff]
  refine fun ⟨h1, hrest⟩ => ⟨?_, hrest⟩
  calc y.cr1 &&& 0xF8FE#16
    _ = x.cr1 &&& ~~~(x.cr1 &&& ~~~y.cr1 &&& clearableCr1 x.cr1) &&& 0xF8FE#16 := by rw [clear_rest hset hclr]
    _ = 0#16 := by rw [← modifyBits_clear]; exact modifyBits_and_eq_zero h1 BitVec.zero_and

theorem State.modifyBus_of_bus? {b : Nat} {x : Bus} {f : Bus → Bus} (h : s.bus? b = some x) :
    s.modifyBus b f = s.putBus b (f x) := by
  simp only [State.modifyBus, h]

theorem rel_refl {R : Bus → Bus → Prop} (hr : ∀ x, R x x) : ∀ o : Option Bus, Option.Rel R o o
  | none => .none
  | some x => .some (hr x)

theorem rel_mono {R Q : Bus → Bus → Prop} (h : ∀ x y, R x y → Q x y) {o p : Option Bus} (hr : Option.Rel R o p) :
    Option.Rel Q o p := by
  cases hr with
  | some hxy => exact .some (h _ _ hxy)
  | none => exact .none

theorem BusStep.refl {interrupt : Bool} (x : Bus) : BusStep interrupt x x := .kept (BusKept.refl x)

/-- A change of one bus, seen from all of them. -/
theorem rel_of_bus? {interrupt : Bool} {b : Nat} {x x' : Bus} (hx : s.bus? b = some x) (hs : BusStep interrupt x x')
    (h : ∀ c, s'.bus? c = if c = b then some x' else s.bus? c) (c : Nat) :
    Option.Rel (BusStep interrupt) (s.bus? c) (s'.bus? c) := by
  rw [h c]
  split
  · next e => rw [e, hx]; exact .some hs
  · exact rel_refl BusStep.refl _

theorem modifyBus_may {b : Nat} {f : Bus → Bus} (hf : ∀ x, LineEngineMay x (f x)) (c : Nat) :
    Option.Rel LineEngineMay (s.bus? c) ((s.modifyBus b f).bus? c) := by
  rw [State.bus?_modifyBus]
  split
  · next e =>
    rw [e]
    cases s.bus? b with
    | none => exact .none
    | some x => exact .some (hf x)
  · exact rel_refl LineEngineMay.refl _

/-- A move of the environment is on each bus a move of its line engine. -/
theorem applyEnv_buses (m : EnvMove) (c : Nat) : Option.Rel LineEngineMay (s.bus? c) ((s.applyEnv m).bus? c) := by
  cases m with
  | setSr1 b v => exact modifyBus_may (f := fun x => { x with sr1 := v }) (fun _ => .of_cr1_eq rfl) c
  | setSr2 b v => exact modifyBus_may (f := fun x => { x with sr2 := v }) (fun _ => .of_cr1_eq rfl) c
  | clearCr1 b v => exact modifyBus_may (fun x => lineClear_may x v) c
  | receive b v => exact modifyBus_may (f := fun x => { x with dr := v }) (fun _ => .of_cr1_eq rfl) c
  | tick => exact rel_refl LineEngineMay.refl _
  | store a v => exact rel_refl LineEngineMay.refl _
  | setXperiph v => exact rel_refl LineEngineMay.refl _

/-- The moves of the environment that turn a bus into another. -/
def lineMoves (b : Nat) (x y : Bus) : List EnvMove :=
  [.clearCr1 b (x.cr1 &&& ~~~y.cr1), .setSr1 b y.sr1, .setSr2 b y.sr2, .receive b y.dr]

theorem applyMoves_line {b : Nat} {x y : Bus} (hx : s.bus? b = some x) (h : LineEngineMay x y) :
    s.applyMoves (lineMoves b x y) = s.putBus b y := by
  obtain ⟨hy, hset, hclr⟩ := h
  simp only [lineMoves, State.applyMoves, State.applyEnv, State.modifyBus_of_bus? hx,
    State.modifyBus_of_bus? (State.bus?_putBus_self _ b _), State.putBus_putBus]
  rw [hy]
  simp only [Bus.lineClear, clear_rest hset hclr]

theorem Dispatched.buses (hd : Dispatched i s) (e : exec i s = .next s') (c : Nat) :
    Option.Rel (BusStep s.interruptMode) (s.bus? c) (s'.bus? c) := by
  obtain ⟨t, -, l⟩ | ⟨t, x, y, y', h, -, -, l, w⟩ | ⟨b, x, v, x', mem, h, rfl, -, w⟩ := hd.leaves e
  · cases l with
    | opened b x op hx => exact rel_of_bus? hx .opened (fun c => State.bus?_openOn s t b c x) c
    | closed h d x op live hx => exact rel_of_bus? hx .closed (fun c => State.bus?_closeOn s t h d.bus c x) c
    | configured h d d' => exact rel_refl BusStep.refl _
    | moved y => exact rel_refl BusStep.refl _
  · exact rel_of_bus? h.2.2 (.kept w.busKept) l.bus c
  · exact rel_of_bus? h.2.1 (.kept w.busKept) (fun c => State.bus?_putBus { s with mem := mem } b c x') c

/-- Every bus takes one of the steps of a bus, or stays, in every step of the machine. -/
theorem step_buses (h : step s = .next s') (c : Nat) :
    Option.Rel (BusStep s.interruptMode) (s.bus? c) (s'.bus? c) := by
  rcases step_next h with ⟨-, rfl⟩ | ⟨e, r, -, h | ⟨i, u, h, hx⟩⟩
  · exact rel_refl BusStep.refl _
  · rcases plan_done h with ⟨m, -, rfl⟩ | ⟨t, bs, -, rfl | ⟨-, rfl⟩⟩ | ⟨t, a, p, d, -, rfl⟩ | ⟨b, -, rfl | ⟨x, -, hx, -, rfl⟩⟩
    · exact rel_mono (fun _ _ h => .kept h.busKept) (applyEnv_buses (s := { s with sched := r }) m c)
    · exact rel_refl BusStep.refl _
    · exact rel_refl BusStep.refl _
    · exact rel_refl BusStep.refl _
    · exact rel_refl BusStep.refl _
    · exact rel_of_bus? (s := { s with sched := r }) hx (.kept (enterInvocation_busKept x _))
        (fun c => State.bus?_putBus { s with cur := .isr b, sched := r } b c _) c
  · obtain ⟨hd, ⟨t, bs, -, rfl⟩ | ⟨t, a, p, d, -, rfl⟩ | ⟨b, -, rfl⟩⟩ := plan_run h
    · exact hd.buses hx c
    · exact hd.buses hx c
    · exact hd.buses hx c

theorem rel_some {R : Bus → Bus → Prop} {o : Option Bus} {y : Bus} (h : Option.Rel R o (some y)) :
    ∃ x, o = some x ∧ R x y := by
  cases h with
  | some hxy => exact ⟨_, rfl, hxy⟩

/-- What holds of every bus and is kept by every step of a bus is an invariant of the machine. -/
theorem step_keeps_buses {P : Bus → Prop} (hP : ∀ m x x', P x → BusStep m x x' → P x')
    (h : ∀ b x, s.bus? b = some x → P x) (hs : step s = .next s') : ∀ b x, s'.bus? b = some x → P x := by
  intro b x' hx'
  obtain ⟨x, hx, hstep⟩ := rel_some (hx' ▸ step_buses hs b)
  exact hP _ _ _ (h b x hx) hstep

/-! ### The registers and the power of a bus -/

theorem BusStep.regsLegal {interrupt : Bool} {x x' : Bus} (h : x.regsLegal = true) (hs : BusStep interrupt x x') :
    x'.regsLegal = true := by
  cases hs with
  | kept hk => exact hk.legal h
  | opened =>
    unfold Bus.opened
    split
    · simp [Bus.regsLegal, CR1_PE]
    · exact h
  | closed =>
    unfold Bus.closed
    dsimp only
    split
    · simp [Bus.regsLegal]
    · exact h

/-- PE is set exactly while the bus is powered. -/
theorem BusStep.powered {interrupt : Bool} {x x' : Bus} (h : 0 < x.refs ↔ x.cr1 &&& CR1_PE ≠ 0#16)
    (hs : BusStep interrupt x x') : 0 < x'.refs ↔ x'.cr1 &&& CR1_PE ≠ 0#16 := by
  cases hs with
  | kept hk => rwa [hk.refs, hk.pe]
  | opened =>
    unfold Bus.opened
    split
    · simp [CR1_PE]
    · next h0 => simpa [Nat.pos_of_ne_zero h0] using h
  | closed =>
    unfold Bus.closed
    dsimp only
    split
    · next h0 => simp [h0]
    · next h0 =>
      have hpos : 0 < x.refs := by omega
      simpa [hpos, Nat.pos_of_ne_zero h0] using h

/-- Settles O50: what each step of a bus does to its registers. -/
theorem registersStayLegal : Obligations.RegistersStayLegal := fun _ _ h hs =>
  step_keeps_buses (fun _ _ _ => BusStep.regsLegal) h hs

/-- Settles O55: OPEN and CLOSE change PE with the count, and nothing else changes either. -/
theorem poweredStaysEnabled : Obligations.PoweredStaysEnabled := fun _ _ h hs =>
  step_keeps_buses (fun _ _ _ => BusStep.powered) h hs

/-- Settles O47: each move is one the liberties allow; four moves make any change they allow. -/
theorem lineEngineLiberties : Obligations.LineEngineLiberties := by
  refine ⟨fun s m b x hx => ?_, fun s b x y hx h => ?_⟩
  · have hrel := applyEnv_buses (s := s) m b
    rw [hx] at hrel
    generalize (s.applyEnv m).bus? b = o at hrel ⊢
    cases hrel with
    | some hxy => exact ⟨_, rfl, hxy⟩
  · refine ⟨lineMoves b x y, ?_⟩
    rw [applyMoves_line hx h]
    exact ⟨State.bus?_putBus_self s b y, fun c hc => State.bus?_putBus_ne hc y, rfl, rfl, rfl, rfl⟩

end Sys2Proof.Machine

/-! SUPPORT. The invariants beside the registers: caller memory, the post that stands with Done, the locks and the wait of
step 9, the count of the live handles. Then what one thread or interrupt context leaves of the other buses. -/

namespace Sys2Proof.Machine

variable {s s' : State} {i : Instr}

/-! ### Caller memory -/

/-- A move of the environment changes nothing beside the buses, caller memory, the time and the other peripheral. -/
theorem applyEnv_others (m : EnvMove) : s.applyEnv m = { s with
    buses := (s.applyEnv m).buses, mem := (s.applyEnv m).mem, now := (s.applyEnv m).now
    xperiphEn := (s.applyEnv m).xperiphEn } := by
  cases m with
  | setSr1 | setSr2 | clearCr1 | receive => simp only [State.applyEnv, State.modifyBus]; split <;> rfl
  | tick | store | setXperiph => rfl

theorem applyEnv_mem (m : EnvMove) : (s.applyEnv m).mem = s.mem ∨ ∃ a v, (s.applyEnv m).mem = memWrite s.mem a v := by
  cases m with
  | setSr1 | setSr2 | clearCr1 | receive => simp only [State.applyEnv, State.modifyBus]; split <;> exact .inl rfl
  | store a v => exact .inr ⟨a, v, rfl⟩
  | tick | setXperiph => exact .inl rfl

/-- Settles O51: memory changes by stores of single bytes only, by a caller or by EV.RX. -/
theorem memoryStaysCanonical : Obligations.MemoryStaysCanonical := by
  have stored : ∀ {s s' : State}, MemoryCanonical s → (s'.mem = s.mem ∨ ∃ a v, s'.mem = memWrite s.mem a v) →
      MemoryCanonical s' := by
    intro s s' h hm
    unfold MemoryCanonical at h ⊢
    obtain hm | ⟨a, v, hm⟩ := hm
    · rwa [hm]
    · rw [hm]; exact memWrite_wf h a v
  intro s s' h hs
  refine step_keeps (P := MemoryCanonical) ?_ ?_ ?_ ?_ ?_ h hs
  · exact fun _ _ _ _ _ _ h => h
  · exact fun s m h => stored h (applyEnv_mem m)
  · exact fun _ _ h _ => h
  · exact fun _ _ _ h _ _ _ => h
  · intro i s s' h hd e
    obtain ⟨t, -, l⟩ | ⟨t, x, y, y', -, -, -, l, -⟩ | ⟨b, x, v, x', mem, -, rfl, hm, -⟩ := hd.leaves e
    · exact stored h (.inl (congrArg State.mem l.others :))
    · exact stored h (.inl (congrArg State.mem l.others :))
    · exact stored h hm

/-! ### The post that stands with Done (R215, R216) -/

/-- A bus whose handshake is Done has a post not yet taken. -/
def Bus.posted (y : Bus) : Prop := y.hs = .done → 0 < y.sig

theorem Bus.posted_of_eq {x y : Bus} (h : x.posted) (hhs : y.hs = x.hs) (hsig : y.sig = x.sig) : y.posted := by
  unfold Bus.posted
  rwa [hhs, hsig]

/-- Waking a waiter posts, in `MODE = Interrupt`. -/
theorem Bus.posted_wake {x : Bus} (h : x.posted) : (x.wake true).posted := by
  unfold Bus.posted at h ⊢
  by_cases hw : x.hs = .waiting
  · simp [hw]
  · simpa [hw] using h

theorem SequencerWrites.posted {x x' : Bus} (w : SequencerWrites true i x x') (h : x.posted) : x'.posted := by
  obtain ⟨hhs, hsig⟩ | ⟨hhs, hsig⟩ := w.wakes
  · exact Bus.posted_of_eq h hhs hsig
  · exact Bus.posted_of_eq (Bus.posted_wake h) hhs hsig

theorem OrchestratorWrites.keeps_posted {y y' : Bus} (w : OrchestratorWrites i y y') (h : y.posted) : y'.posted := by
  obtain ⟨hhs, hsig⟩ | hnot := w.posted
  · exact Bus.posted_of_eq h hhs hsig
  · exact fun hd => absurd hd hnot

/-- A property of every bus, after a change of one. -/
theorem forall_bus_of_lookup {Q : Nat → Bus → Prop} {b : Nat} {x' : Bus} (h : ∀ c x, s.bus? c = some x → Q c x)
    (hb : Q b x') (hl : ∀ c, s'.bus? c = if c = b then some x' else s.bus? c) : ∀ c x, s'.bus? c = some x → Q c x := by
  intro c x hx
  rw [hl c] at hx
  split at hx
  · next e => cases hx; rwa [e]
  · exact h c x hx

/-- A property of every bus, after a move of the environment. -/
theorem forall_bus_of_env {Q : Nat → Bus → Prop} {m : EnvMove} (h : ∀ c x, s.bus? c = some x → Q c x)
    (hQ : ∀ c x y, LineEngineMay x y → Q c x → Q c y) : ∀ c x, (s.applyEnv m).bus? c = some x → Q c x := by
  intro c y hy
  have hrel := applyEnv_buses (s := s) m c
  rw [hy] at hrel
  obtain ⟨x, hx, hxy⟩ := rel_some hrel
  exact hQ c x y hxy (h c x hx)

/-- Settles O53: a bus gets its Done with a post, and a post is taken only when Done is given up. -/
theorem doneStaysPosted : Obligations.DoneStaysPosted := by
  intro s s' h hs
  refine step_keeps (P := DoneIsPosted) ?_ ?_ ?_ ?_ ?_ h hs
  · exact fun _ _ _ _ _ _ h => h
  · intro s m h hm
    rw [applyEnv_others] at hm
    exact forall_bus_of_env (h hm) fun _ _ _ hxy hx =>
      Bus.posted_of_eq hx (congrArg Bus.hs hxy.1 :) (congrArg Bus.sig hxy.1 :)
  · exact fun _ _ h _ => h
  · exact fun s b x h _ hx _ hm =>
      forall_bus_of_lookup (x' := x.enterInvocation s.cfg.traceEn) (h hm) (h hm b x hx)
        fun c => State.bus?_putBus s b c _
  · intro i s s' h hd e hm
    obtain ⟨t, -, l⟩ | ⟨t, x, y, y', hin, -, -, l, w⟩ | ⟨b, x, v, x', mem, hin, rfl, -, w⟩ := hd.leaves e
    · replace h := h ((congrArg (fun u => u.cfg.mode) l.others :).symm.trans hm)
      cases l with
      | opened b x op hx =>
        exact forall_bus_of_lookup h (Bus.posted_of_eq (h b x hx) (by simp) (by simp))
          fun c => State.bus?_openOn s t b c x
      | closed k d x op live hx =>
        exact forall_bus_of_lookup h (Bus.posted_of_eq (h _ x hx) (by simp) (by simp))
          fun c => State.bus?_closeOn s t k d.bus c x
      | configured k d d' => exact h
      | moved y => exact h
    · replace h := h ((congrArg (fun u => u.cfg.mode) l.others :).symm.trans hm)
      exact forall_bus_of_lookup h (w.keeps_posted (h _ y hin.2.2)) l.bus
    · have hm' : s.cfg.mode = .interrupt := hm
      rw [State.interruptMode_iff.mpr hm'] at w
      exact forall_bus_of_lookup (h hm) (w.posted (h hm b x hin.2.1)) fun c => State.bus?_putBus _ b c x'

/-! ### The locks and the wait of step 9 (R86, R88, R301) -/

/-- A bus is not quiet: its handshake is not Idle, an invocation is in progress, or an enable is set. -/
def Bus.active (y : Bus) : Prop := y.hs ≠ .idle ∨ y.inv ≠ none ∨ y.cr2 &&& 0x0700#16 ≠ 0#16

theorem waitDiscipline_iff : WaitDiscipline s ↔ ∀ b y, s.bus? b = some y →
    (y.active → WaiterOn s b) ∧ (y.cr2 &&& 0x0700#16 ≠ 0#16 → s.cfg.mode = .interrupt) := by
  constructor
  · intro h b y hy
    obtain ⟨hhs, hinv, hcr2⟩ := h b y hy
    refine ⟨?_, fun he => (hcr2 he).1⟩
    rintro (ha | ha | ha)
    · exact hhs ha
    · exact hinv ha
    · exact (hcr2 ha).2
  · intro h b y hy
    obtain ⟨hactive, hmode⟩ := h b y hy
    exact ⟨fun ha => hactive (.inl ha), fun ha => hactive (.inr (.inl ha)),
      fun he => ⟨hmode he, hactive (.inr (.inr he))⟩⟩

/-- A bus becomes neither active nor armed anew. -/
structure StaysCalm (m : Mode) (y y' : Bus) : Prop where
  active : y'.active → y.active
  armed : y'.cr2 &&& 0x0700#16 ≠ 0#16 → y.cr2 &&& 0x0700#16 ≠ 0#16 ∨ m = .interrupt

/-- The locks are kept where no lock changes hands, and a thread past step 1 was so before, on the same bus. -/
theorem LockDiscipline.of_kept (h : LockDiscipline s)
    (hpast : ∀ t x', (s'.thread t).txn = some x' → 2 ≤ x'.step →
      ∃ x, (s.thread t).txn = some x ∧ x.bus = x'.bus ∧ 2 ≤ x.step)
    (hlock : ∀ b y', s'.bus? b = some y' → ∃ y, s.bus? b = some y ∧ y'.lock = y.lock) : LockDiscipline s' := by
  intro t x' y' ht hy' h2
  obtain ⟨x, hx, hb, hx2⟩ := hpast t x' ht h2
  obtain ⟨y, hy, hl⟩ := hlock _ _ hy'
  rw [hl]
  exact h t x y hx (hb ▸ hy) hx2

/-- The wait is kept where no wait ends and no bus becomes active. -/
theorem WaitDiscipline.of_kept (h : WaitDiscipline s) (hmode : s'.cfg.mode = s.cfg.mode)
    (hwait : ∀ b, WaiterOn s b → WaiterOn s' b)
    (hcalm : ∀ b y', s'.bus? b = some y' → ∃ y, s.bus? b = some y ∧ StaysCalm s.cfg.mode y y') : WaitDiscipline s' := by
  rw [waitDiscipline_iff] at h ⊢
  intro b y' hy'
  obtain ⟨y, hy, hc⟩ := hcalm b y' hy'
  obtain ⟨hw, hm⟩ := h b y hy
  exact ⟨fun ha => hwait b (hw (hc.active ha)), fun he => hmode.trans ((hc.armed he).elim hm id)⟩

/-- A relation of each bus to what it was, after a change of one. -/
theorem exists_bus_of_lookup {R : Bus → Bus → Prop} (hr : ∀ x, R x x) {b : Nat} {x x' : Bus} (hx : s.bus? b = some x)
    (hx' : R x x') (hl : ∀ c, s'.bus? c = if c = b then some x' else s.bus? c) :
    ∀ c y', s'.bus? c = some y' → ∃ y, s.bus? c = some y ∧ R y y' :=
  forall_bus_of_lookup (fun _ y hy => ⟨y, hy, hr y⟩) ⟨x, hx, hx'⟩ hl

section Calm

variable {m : Mode} {y y' : Bus}

theorem StaysCalm.of_eq (hhs : y'.hs = y.hs) (hinv : y'.inv = y.inv) (hcr2 : y'.cr2 = y.cr2 ∨ y'.cr2 = 0x0000#16) :
    StaysCalm m y y' := by
  have henable : y'.cr2 &&& 0x0700#16 ≠ 0#16 → y.cr2 &&& 0x0700#16 ≠ 0#16 := by
    obtain h | h := hcr2
    · rw [h]; exact id
    · rw [h]; exact fun h0 => absurd (by decide) h0
  refine ⟨?_, fun h => .inl (henable h)⟩
  unfold Bus.active
  rw [hhs, hinv]
  exact Or.imp_right (Or.imp_right henable)

theorem StaysCalm.refl (m : Mode) (y : Bus) : StaysCalm m y y := .of_eq rfl rfl (.inl rfl)

theorem StaysCalm.trans {x : Bus} (h : StaysCalm m x y) (h' : StaysCalm m y y') : StaysCalm m x y' :=
  ⟨fun ha => h.active (h'.active ha), fun he => (h'.armed he).elim h.armed .inr⟩

/-- In an invocation the bus is active already. -/
theorem SequencerWrites.staysCalm (w : SequencerWrites s.interruptMode i y y') (hinv : y.inv ≠ none) :
    StaysCalm s.cfg.mode y y' := by
  refine ⟨fun _ => .inr (.inl hinv), fun h => ?_⟩
  by_cases hm : s.cfg.mode = .interrupt
  · exact .inr hm
  · rw [w.cr2_polled (by simpa [State.interruptMode] using hm)] at h
    exact .inl h

/-- Of the ORCH steps only step 9 touches what makes a bus active. -/
theorem OrchestratorWrites.staysCalm (w : OrchestratorWrites i y y') (hi : i ≠ .orchWait) : StaysCalm m y y' := by
  have hw := mt w.wait hi
  simp only [not_or, not_not] at hw
  obtain ⟨hhs, -, hcr2, hinv⟩ := hw
  exact .of_eq hhs hinv (.inl hcr2)

theorem OrchestratorWrites.lock_eq (w : OrchestratorWrites i y y') (hl : i ≠ .orchLock) (hu : i ≠ .orchUnlock) :
    y'.lock = y.lock := by
  by_contra h
  exact (w.lock (.inl h)).elim hl hu

/-- An interrupt request needs an enable (R300). -/
theorem enabled_of_irqRequest {cr2 sr1 : Half} (h : irqRequest cr2 sr1 = true) : cr2 &&& 0x0700#16 ≠ 0#16 := by
  intro h0
  have herr : anyBit cr2 CR2_ITERREN = false := anyBit_eq_false_of_subset h0 (by decide)
  have hevt : anyBit cr2 CR2_ITEVTEN = false := anyBit_eq_false_of_subset h0 (by decide)
  simp [irqRequest, herr, hevt] at h

/-- A bus that takes its interrupt is armed, so it is active already. -/
theorem enterInvocation_staysCalm {on : Bool} (h : y.irqEnabledNow = true) : StaysCalm m y (y.enterInvocation on) := by
  simp only [Bus.irqEnabledNow, Bus.irq, Bool.and_eq_true] at h
  obtain ⟨⟨⟨⟨hirq, -⟩, -⟩, -⟩, -⟩ := h
  have harmed := enabled_of_irqRequest hirq
  exact ⟨fun _ => .inr (.inr harmed), fun _ => .inl harmed⟩

end Calm

/-- Where no thread moves, the discipline is kept if each bus keeps its lock and stays calm. -/
theorem Coherent.of_buses (h : Coherent s) (hmode : s'.cfg.mode = s.cfg.mode)
    (hthread : ∀ t, (s'.thread t).txn = (s.thread t).txn)
    (hbus : ∀ b y', s'.bus? b = some y' → ∃ y, s.bus? b = some y ∧ y'.lock = y.lock ∧ StaysCalm s.cfg.mode y y') :
    Coherent s' := by
  obtain ⟨hlock, hwait⟩ := h
  refine ⟨hlock.of_kept (fun t x' ht h2 => ⟨x', hthread t ▸ ht, rfl, h2⟩) fun b y' hy' => ?_,
    hwait.of_kept hmode ?_ fun b y' hy' => ?_⟩
  · obtain ⟨y, hy, hl, -⟩ := hbus b y' hy'
    exact ⟨y, hy, hl⟩
  · rintro b ⟨t, x, ht, hrest⟩
    exact ⟨t, x, (hthread t).trans ht, hrest⟩
  · obtain ⟨y, hy, -, hc⟩ := hbus b y' hy'
    exact ⟨y, hy, hc⟩

/-- Where no thread moves and one bus changes, the discipline is kept if that bus keeps its lock and stays calm. -/
theorem Coherent.of_bus {b : Nat} {x x' : Bus} (h : Coherent s) (hmode : s'.cfg.mode = s.cfg.mode)
    (hthread : ∀ t, (s'.thread t).txn = (s.thread t).txn) (hx : s.bus? b = some x) (hl : x'.lock = x.lock)
    (hc : StaysCalm s.cfg.mode x x') (hbus : ∀ c, s'.bus? c = if c = b then some x' else s.bus? c) : Coherent s' :=
  h.of_buses hmode hthread (exists_bus_of_lookup (R := fun y y' => y'.lock = y.lock ∧ StaysCalm s.cfg.mode y y')
    (fun y => ⟨rfl, .refl _ y⟩) hx ⟨hl, hc⟩ hbus)

theorem Coherent.applyEnv (h : Coherent s) (m : EnvMove) : Coherent (s.applyEnv m) := by
  have hothers := applyEnv_others (s := s) m
  refine h.of_buses (congrArg (fun u => u.cfg.mode) hothers :)
    (fun t => (congrArg (fun u => (State.thread u t).txn) hothers :)) ?_
  refine forall_bus_of_env (Q := fun b y' => ∃ y, s.bus? b = some y ∧ y'.lock = y.lock ∧ StaysCalm s.cfg.mode y y')
    (fun b y hy => ⟨y, hy, rfl, .refl _ y⟩) fun b x y hxy ⟨z, hz, hl, hc⟩ => ⟨z, hz, ?_, ?_⟩
  · exact (congrArg Bus.lock hxy.1 :).trans hl
  · exact hc.trans (.of_eq (congrArg Bus.hs hxy.1 :) (congrArg Bus.inv hxy.1 :) (.inl (congrArg Bus.cr2 hxy.1 :)))

/-- A host command: the caller was inside no transaction and is then at most at step 1 of one. -/
theorem CommandLeaves.coherent {t : Nat} (l : CommandLeaves s i t s') (hr : CallerReady s t) (h : Coherent s) :
    Coherent s' := by
  obtain ⟨hlock, hwait⟩ := h
  have hbus : ∀ b y', s'.bus? b = some y' → ∃ y, s.bus? b = some y ∧ (y'.lock = y.lock ∧ StaysCalm s.cfg.mode y y') := by
    have hrefl : ∀ y : Bus, y.lock = y.lock ∧ StaysCalm s.cfg.mode y y := fun y => ⟨rfl, .refl _ y⟩
    cases l with
    | opened b x op hx =>
      exact exists_bus_of_lookup hrefl hx ⟨by simp, .of_eq (by simp) (by simp) Bus.opened_cr2⟩
        fun c => State.bus?_openOn s t b c x
    | closed k d x op live hx =>
      exact exists_bus_of_lookup hrefl hx ⟨by simp, .of_eq (by simp) (by simp) Bus.closed_cr2⟩
        fun c => State.bus?_closeOn s t k d.bus c x
    | configured k d d' => exact fun b y hy => ⟨y, hy, hrefl y⟩
    | moved y => exact fun b y hy => ⟨y, hy, hrefl y⟩
  refine ⟨hlock.of_kept (fun u x' hu h2 => ?_) fun b y' hy' => ?_,
    hwait.of_kept (congrArg (fun u => u.cfg.mode) l.others :) ?_ fun b y' hy' => ?_⟩
  · by_cases e : u = t
    · subst e
      obtain hn | ⟨k, d, p, n, hx⟩ := l.caller
      · rw [hn] at hu; cases hu
      · rw [hx] at hu; cases hu; exact absurd h2 (by simp [Txn.start])
    · exact ⟨x', l.thread e ▸ hu, rfl, h2⟩
  · obtain ⟨y, hy, hl, -⟩ := hbus b y' hy'
    exact ⟨y, hy, hl⟩
  · rintro b ⟨u, x, hu, hrest⟩
    have e : u ≠ t := by
      rintro rfl
      rw [hr.2] at hu; cases hu
    exact ⟨u, x, (congrArg Thread.txn (l.thread e)).trans hu, hrest⟩
  · obtain ⟨y, hy, -, hc⟩ := hbus b y' hy'
    exact ⟨y, hy, hc⟩

section Orchestrator

variable {t : Nat} {x : Txn} {y y' : Bus}

/-- A thread at another step than 9 does not wait, so those who wait go on waiting. -/
theorem OrchestratorLeaves.waiterOn (l : OrchestratorLeaves s i t x y' s') (hin : InTxn s t x y) (h9 : x.step ≠ 9)
    (b : Nat) (h : WaiterOn s b) : WaiterOn s' b := by
  obtain ⟨u, z, hz, hb, hstep, hwait⟩ := h
  have e : u ≠ t := by
    rintro rfl
    obtain rfl : x = z := by simpa [hin.2.1] using hz
    exact h9 hstep
  exact ⟨u, z, (congrArg Thread.txn (l.threads u e)).trans hz, hb, hstep, hwait⟩

theorem OrchestratorLeaves.bus_of {R : Bus → Bus → Prop} (l : OrchestratorLeaves s i t x y' s') (hin : InTxn s t x y)
    (hr : ∀ z, R z z) (hy : R y y') : ∀ b z', s'.bus? b = some z' → ∃ z, s.bus? b = some z ∧ R z z' :=
  exists_bus_of_lookup hr hin.2.2 hy l.bus

theorem OrchestratorLeaves.mode (l : OrchestratorLeaves s i t x y' s') : s'.cfg.mode = s.cfg.mode :=
  (congrArg (fun u => u.cfg.mode) l.others :)

/-- The lock of the bus stays with a thread past step 1, whichever step that is but the last. -/
theorem OrchestratorLeaves.lockDiscipline (l : OrchestratorLeaves s i t x y' s') (hin : InTxn s t x y)
    (h : LockDiscipline s) (h2 : 2 ≤ x.step) (hu : i ≠ .orchUnlock) (hl : y'.lock = y.lock) : LockDiscipline s' := by
  refine h.of_kept (fun u x' hx' h2' => ?_) (l.bus_of (R := fun z z' => z'.lock = z.lock) hin (fun _ => rfl) hl)
  by_cases e : u = t
  · subst e
    obtain ⟨z, hz, hb⟩ := l.inside hu
    rw [hx'] at hz
    cases hz
    exact ⟨x, hin.2.1, hb.symm, h2⟩
  · exact ⟨x', l.threads u e ▸ hx', rfl, h2'⟩

/-- The steps between the lock and its release, but the wait. -/
theorem OrchestratorLeaves.coherent (l : OrchestratorLeaves s i t x y' s') (w : OrchestratorWrites i y y')
    (hin : InTxn s t x y) (h : Coherent s) (h2 : 2 ≤ x.step) (h9 : x.step ≠ 9) (hl : i ≠ .orchLock) (hw : i ≠ .orchWait)
    (hu : i ≠ .orchUnlock) : Coherent s' :=
  ⟨l.lockDiscipline hin h.1 h2 hu (w.lock_eq hl hu),
    h.2.of_kept l.mode (l.waiterOn hin h9) (l.bus_of hin (.refl _) (w.staysCalm hw))⟩

/-- Step 1: the thread goes on only as the holder. -/
theorem execOrchLock_leaves (e : execOrchLock s = .next s') : ∃ t x y, InTxn s t x y ∧
    OrchestratorLeaves s .orchLock t x (y.acquire t) s' ∧
    ((y.acquire t).lock = .held t ∨ (s'.thread t).txn = some x) := by
  obtain ⟨t, x, y, h, ⟨hl, rfl⟩ | ⟨-, rfl⟩⟩ := execOrchLock_next e
  · exact ⟨t, x, y, h, leaves_putBus_putTxn (k := s.sink) rfl (absurd rfl), .inl hl⟩
  · exact ⟨t, x, y, h, leaves_putBus h, .inr h.2.1⟩

theorem execOrchLock_coherent (hin : InTxn s t x y) (h1 : x.step = 1) (h : Coherent s)
    (e : execOrchLock s = .next s') : Coherent s' := by
  obtain ⟨hlock, hwait⟩ := h
  obtain ⟨t', x', y', hin', l, hgo⟩ := execOrchLock_leaves e
  obtain ⟨rfl, rfl, rfl⟩ := hin'.unique hin
  refine ⟨fun u z z' hz hz' h2 => ?_, hwait.of_kept l.mode (l.waiterOn hin (by omega))
    (l.bus_of hin (.refl s.cfg.mode) (.of_eq (by simp) (by simp) (.inl (by simp))))⟩
  rw [l.bus] at hz'
  by_cases e : u = t
  · subst e
    obtain ⟨z₁, hz₁, hb⟩ := l.inside (by decide)
    obtain rfl : z = z₁ := by simpa [hz] using hz₁
    rw [if_pos hb] at hz'
    cases hz'
    refine hgo.resolve_right fun hx => ?_
    obtain rfl : z = x := by simpa [hz] using hx
    omega
  · have hz₀ : (s.thread u).txn = some z := l.threads u e ▸ hz
    split at hz'
    · next hb =>
      cases hz'
      exact Bus.acquire_held (hlock u z y hz₀ (hb ▸ hin.2.2) h2)
    · exact hlock u z z' hz₀ hz' h2

/-- Step 17: the holder leaves, so nobody else is past step 1 on the bus. -/
theorem execOrchUnlock_coherent (hin : InTxn s t x y) (h17 : x.step = 17) (h : Coherent s)
    (e : execOrchUnlock s = .next s') : Coherent s' := by
  obtain ⟨hlock, hwait⟩ := h
  obtain ⟨t', x', y', hin', rfl⟩ := execOrchUnlock_next e
  obtain ⟨rfl, rfl, rfl⟩ := hin'.unique hin
  have l := leaves_unlock (s := s) (t := t) (x := x) (y' := y.release s.pick) (r := x.result)
  refine ⟨fun u z z' hz hz' h2 => ?_, hwait.of_kept l.mode (l.waiterOn hin (by omega))
    (l.bus_of hin (.refl s.cfg.mode) (.of_eq (by simp) (by simp) (.inl (by simp))))⟩
  rw [l.bus] at hz'
  have e : u ≠ t := by
    rintro rfl
    simp [State.thread_raise] at hz
  have hz₀ : (s.thread u).txn = some z := l.threads u e ▸ hz
  split at hz'
  · next hb =>
    have ht := hlock t x y hin.2.1 hin.2.2 (by omega)
    have hu := hlock u z y hz₀ (hb ▸ hin.2.2) h2
    rw [ht] at hu
    cases hu
    exact absurd rfl e
  · exact hlock u z z' hz₀ hz' h2

/-- A bus on which no invocation is in progress is quiet once the wait of its holder is over. -/
theorem not_active_disarm {interrupt : Bool} (hinv : y.inv = none)
    (hmode : y.cr2 &&& 0x0700#16 ≠ 0#16 → interrupt = true) : ¬(y.disarm interrupt).active := by
  have hcr2 : (y.disarm interrupt).cr2 &&& 0x0700#16 = 0#16 := by
    cases interrupt
    · exact not_not.mp fun h => absurd (hmode h) (by decide)
    · calc modifyBits y.cr2 (CR2_ITERREN ||| CR2_ITEVTEN ||| CR2_ITBUFEN) 0x0000#16 &&& 0x0700#16
          = y.cr2 &&& (~~~(CR2_ITERREN ||| CR2_ITEVTEN ||| CR2_ITBUFEN) &&& 0x0700#16) := by
            rw [modifyBits_clear, BitVec.and_assoc]
        _ = 0#16 := BitVec.and_zero
  rintro (h | h | h)
  · exact h rfl
  · exact h hinv
  · exact h hcr2

/-- Step 9: the thread waits on, or the bus is quiet again. -/
theorem execOrchWait_coherent (hin : InTxn s t x y) (h9 : x.step = 9) (hinv : y.inv = none) (h : Coherent s)
    (e : execOrchWait s = .next s') : Coherent s' := by
  obtain ⟨hlock, hwait⟩ := h
  obtain ⟨t', x', y₀, y', hin', l, w, hstay⟩ := execOrchWait_leaves e
  obtain ⟨rfl, rfl, rfl⟩ := hin'.unique hin
  refine ⟨l.lockDiscipline hin hlock (by omega) (by decide) (w.lock_eq (by decide) (by decide)), ?_⟩
  rw [waitDiscipline_iff] at hwait ⊢
  intro b z hz
  rw [l.bus] at hz
  rw [l.mode]
  split at hz
  · next hb =>
    cases hz
    subst hb
    obtain ⟨-, harmed⟩ := hwait _ y hin.2.2
    obtain ⟨hw, hcr2⟩ | ⟨n, rfl⟩ := hstay
    · refine ⟨fun _ => ⟨t, hw h9⟩, fun he => ?_⟩
      obtain hcr2 | hm := hcr2
      · exact harmed (hcr2 ▸ he)
      · exact State.interruptMode_iff.mp hm
    · have hquiet : ¬({ y with sig := n }.disarm s.interruptMode).active :=
        not_active_disarm hinv fun he => State.interruptMode_iff.mpr (harmed he)
      exact ⟨fun ha => absurd ha hquiet, fun he => absurd (.inr (.inr he)) hquiet⟩
  · next hb =>
    obtain ⟨hactive, harmed⟩ := hwait b z hz
    refine ⟨fun ha => ?_, harmed⟩
    obtain ⟨u, v, hv, hvb, hrest⟩ := hactive ha
    have e : u ≠ t := by
      rintro rfl
      obtain rfl : x = v := by simpa [hin.2.1] using hv
      exact hb hvb.symm
    exact ⟨u, v, (congrArg Thread.txn (l.threads u e)).trans hv, hvb, hrest⟩

theorem stepOf_places {n : Nat} (h : stepOf n = some i) :
    (i = .orchLock → n = 1) ∧ (i = .orchWait → n = 9) ∧ (i = .orchUnlock → n = 17) := by
  unfold stepOf at h
  split at h <;> cases h <;> simp

/-- Every ORCH step, at its own place in the order of the steps. -/
theorem orchestrator_coherent (hin : InTxn s t x y) (hinv : y.inv = none) (num : stepOf x.step = some i) (h : Coherent s)
    (l : OrchestratorLeaves s i t x y' s') (w : OrchestratorWrites i y y') (e : exec i s = .next s') : Coherent s' := by
  by_cases h1 : x.step = 1
  · rw [h1] at num; cases num
    exact execOrchLock_coherent hin h1 h e
  by_cases h9 : x.step = 9
  · rw [h9] at num; cases num
    exact execOrchWait_coherent hin h9 hinv h e
  by_cases h17 : x.step = 17
  · rw [h17] at num; cases num
    exact execOrchUnlock_coherent hin h17 h e
  obtain ⟨hl, hw, hu⟩ := stepOf_places num
  have hle := stepOf_le num
  exact l.coherent w hin h (by omega) h9 (mt hl h1) (mt hw h9) (mt hu h17)

end Orchestrator

/-- Settles O52: the lock changes hands at steps 1 and 17 only, and only step 9 makes a bus active or ends a wait. -/
theorem staysCoherent : Obligations.StaysCoherent := by
  intro s s' h hs
  refine step_keeps (P := Coherent) ?_ ?_ ?_ ?_ ?_ h hs
  · exact fun _ _ _ _ _ _ h => h
  · exact fun s m h => h.applyEnv m
  · refine fun s t h hn => h.of_buses rfl (fun u => ?_) fun b y hy => ⟨y, hy, rfl, .refl _ y⟩
    rw [State.thread_raise]
    split
    · next e => rw [e, hn]
    · rfl
  · intro s b x h _ hx he
    exact h.of_bus rfl (fun _ => rfl) hx (by simp) (enterInvocation_staysCalm he) fun c => State.bus?_putBus s b c _
  · intro i s s' h hd e
    obtain ⟨t, hr, l⟩ | ⟨t, x, y, y', hin, hinv, num, l, w⟩ | ⟨b, x, v, x', mem, hin, rfl, -, w⟩ := hd.leaves e
    · exact l.coherent hr h
    · exact orchestrator_coherent hin hinv num h l w e
    · exact h.of_bus rfl (fun _ => rfl) hin.2.1 (congrArg Bus.lock w.others :) (w.staysCalm (by simp [hin.2.2]))
        fun c => State.bus?_putBus _ b c x'

end Sys2Proof.Machine

/-! SUPPORT. The count of the live handles (R22, R31), as the list of the handles changes by one. -/

namespace Sys2Proof.Machine

variable {s s' : State} {i : Instr}

/-! ### Keys of a keyed list -/

section Keys

variable {α : Type} {q : Nat} {w : α} {p : Nat × α}

theorem mem_of_kget {m : KMap α} (h : kget m q = some w) : (q, w) ∈ m := by
  induction m with
  | nil => cases h
  | cons c r ih =>
    obtain ⟨k, v⟩ := c
    rw [kget] at h
    split at h
    · next e => cases h; simp [e]
    · exact List.mem_cons_of_mem _ (ih h)

theorem mem_kput {m : KMap α} (h : p ∈ kput m q w) : p = (q, w) ∨ p ∈ m := by
  induction m with
  | nil => simpa [kput] using h
  | cons c r ih =>
    obtain ⟨k, v⟩ := c
    rw [kput] at h
    split at h
    · simpa using h
    · split at h
      · exact (List.mem_cons.mp h).imp_right (List.mem_cons_of_mem _)
      · obtain rfl | h := List.mem_cons.mp h
        · simp
        · exact (ih h).imp_right (List.mem_cons_of_mem _)

theorem mem_kdel {m : KMap α} (h : p ∈ kdel m q) : p ∈ m := by
  induction m with
  | nil => exact h
  | cons c r ih =>
    obtain ⟨k, v⟩ := c
    rw [kdel] at h
    split at h
    · exact List.mem_cons_of_mem _ (ih h)
    · obtain rfl | h := List.mem_cons.mp h
      · simp
      · exact List.mem_cons_of_mem _ (ih h)

/-- A key at or above a bound of all keys is new. -/
theorem kget_eq_none_of_lt {m : KMap α} (h : ∀ p ∈ m, p.1 < q) : kget m q = none := by
  by_contra hne
  obtain ⟨w, hw⟩ := Option.ne_none_iff_exists'.mp hne
  exact absurd (h _ (mem_of_kget hw)) (lt_irrefl q)

end Keys

/-! ### Counting the handles of a bus -/

section Count

variable {q b : Nat} {d : Handle}

/-- What one entry adds to the handles of bus `b`. -/
def handleCount (o : Option Handle) (b : Nat) : Nat := if o.map Handle.bus = some b then 1 else 0

@[simp] theorem handleCount_none : handleCount none b = 0 := rfl

theorem handleCount_some : handleCount (some d) b = if d.bus = b then 1 else 0 := by
  simp [handleCount]

theorem handlesOf_cons {m : KMap Handle} {k : Nat} : handlesOf ((k, d) :: m) b = handlesOf m b + handleCount (some d) b := by
  rw [handleCount_some]
  unfold handlesOf
  by_cases h : d.bus = b <;> simp [h]

theorem handlesOf_kput {m : KMap Handle} (hm : ksorted m = true) :
    handlesOf (kput m q d) b + handleCount (kget m q) b = handlesOf m b + handleCount (some d) b := by
  induction m with
  | nil => simp [kput, handlesOf_cons]
  | cons c r ih =>
    obtain ⟨k, v⟩ := c
    simp only [ksorted, Bool.and_eq_true] at hm
    obtain ⟨habove, hr⟩ := hm
    by_cases hlt : q < k
    · have hnone : kget r q = none := kget_none_of_kabove habove q hlt.le
      simp [kput, kget, hlt, hlt.ne', hnone, handlesOf_cons]
    · by_cases heq : k = q
      · subst heq
        simp only [kput, kget, lt_irrefl, if_true, if_false, handlesOf_cons]
        omega
      · have := ih hr
        simp only [kput, kget, if_neg hlt, if_neg heq, handlesOf_cons]
        omega

theorem handlesOf_kdel {m : KMap Handle} (hm : ksorted m = true) :
    handlesOf (kdel m q) b + handleCount (kget m q) b = handlesOf m b := by
  induction m with
  | nil => rfl
  | cons c r ih =>
    obtain ⟨k, v⟩ := c
    simp only [ksorted, Bool.and_eq_true] at hm
    obtain ⟨habove, hr⟩ := hm
    have := ih hr
    by_cases heq : k = q
    · subst heq
      rw [kget_none_of_kabove habove k le_rfl, handleCount_none] at this
      simp only [kdel, kget, if_true, handlesOf_cons]
      omega
    · simp only [kdel, kget, if_neg heq, handlesOf_cons]
      omega

end Count

/-- Where the handles stay, the counts need only stay too. -/
theorem RefsCountHandles.of_kept (h : RefsCountHandles s) (hh : s'.handles = s.handles) (hn : s'.nextHandle = s.nextHandle)
    (hbus : ∀ b y', s'.bus? b = some y' → ∃ y, s.bus? b = some y ∧ y'.refs = y.refs) : RefsCountHandles s' := by
  obtain ⟨hsort, hlt, hrefs⟩ := h
  refine ⟨hh ▸ hsort, fun p hp => ?_, fun b y' hy' => ?_⟩
  · rw [hn]; exact hlt p (hh ▸ hp)
  · obtain ⟨y, hy, e⟩ := hbus b y' hy'
    rw [e, hh]; exact hrefs b y hy

section Host

variable {t k b : Nat} {x : Bus} {d d' : Handle}

/-- OPEN: one handle more, of an identity not used before. -/
theorem RefsCountHandles.openOn (h : RefsCountHandles s) (hx : s.bus? b = some x) :
    RefsCountHandles (s.openOn t b x) := by
  obtain ⟨hsort, hlt, hrefs⟩ := h
  have hnew : ∀ c, handlesOf (kput s.handles s.nextHandle ⟨b, defaultFreq, 0x0000#16, 0x0000#16⟩) c =
      handlesOf s.handles c + if b = c then 1 else 0 := fun c => by
    have := handlesOf_kput (q := s.nextHandle) (d := ⟨b, defaultFreq, 0x0000#16, 0x0000#16⟩) (b := c) hsort
    rw [kget_eq_none_of_lt hlt, handleCount_none, handleCount_some] at this
    exact this
  refine ⟨ksorted_kput _ _ hsort, fun p hp => ?_, fun c y hy => ?_⟩
  · show p.1 < s.nextHandle + 1
    obtain rfl | hp := mem_kput hp
    · exact Nat.lt_succ_self _
    · exact Nat.lt_succ_of_lt (hlt p hp)
  · show y.refs = handlesOf (kput s.handles s.nextHandle _) c
    rw [hnew]
    rw [State.bus?_openOn] at hy
    split at hy
    · next e => cases hy; subst e; simp [hrefs c x hx]
    · next e => rw [if_neg (Ne.symm e)]; exact hrefs c y hy

/-- CLOSE: one handle fewer; it was counted. -/
theorem RefsCountHandles.closeOn (h : RefsCountHandles s) (hd : s.handle? k = some d) (hx : s.bus? d.bus = some x) :
    RefsCountHandles (s.closeOn t k d.bus x) := by
  obtain ⟨hsort, hlt, hrefs⟩ := h
  refine ⟨ksorted_kdel _ hsort, fun p hp => hlt p (mem_kdel hp), fun c y hy => ?_⟩
  show y.refs = handlesOf (kdel s.handles k) c
  have hc := handlesOf_kdel (q := k) (b := c) hsort
  rw [show kget s.handles k = some d from hd, handleCount_some] at hc
  rw [State.bus?_closeOn] at hy
  split at hy
  · next e =>
    cases hy
    subst e
    rw [if_pos rfl] at hc
    simp only [Bus.closed_fields, hrefs _ x hx]
    omega
  · next e =>
    rw [if_neg (Ne.symm e)] at hc
    rw [hrefs c y hy]
    omega

/-- SETFREQ and SETADDR leave the handle on its bus. -/
theorem RefsCountHandles.putHandle (h : RefsCountHandles s) (hd : s.handle? k = some d) (hb : d'.bus = d.bus) :
    RefsCountHandles (s.putHandle k d') := by
  obtain ⟨hsort, hlt, hrefs⟩ := h
  refine ⟨ksorted_kput _ _ hsort, fun p hp => ?_, fun c y hy => ?_⟩
  · obtain rfl | hp := mem_kput hp
    · exact hlt (k, d) (mem_of_kget hd)
    · exact hlt p hp
  · have hc := handlesOf_kput (q := k) (d := d') (b := c) hsort
    rw [show kget s.handles k = some d from hd, handleCount_some, handleCount_some, hb] at hc
    exact (hrefs c y hy).trans (Nat.add_right_cancel hc).symm

end Host

/-- Settles O56: OPEN and CLOSE change the count of their bus and the handles together; nothing else changes either. -/
theorem refsStayCounted : Obligations.RefsStayCounted := by
  intro s s' h hs
  refine step_keeps (P := RefsCountHandles) ?_ ?_ ?_ ?_ ?_ h hs
  · exact fun _ _ _ _ _ _ h => h
  · intro s m h
    have hothers := applyEnv_others (s := s) m
    exact h.of_kept (congrArg State.handles hothers :) (congrArg State.nextHandle hothers :)
      (forall_bus_of_env (Q := fun b y' => ∃ y, s.bus? b = some y ∧ y'.refs = y.refs) (fun b y hy => ⟨y, hy, rfl⟩)
        fun b x y hxy ⟨z, hz, e⟩ => ⟨z, hz, (congrArg Bus.refs hxy.1 :).trans e⟩)
  · exact fun _ _ h _ => h
  · exact fun s b x h _ hx _ => h.of_kept rfl rfl
      (exists_bus_of_lookup (R := fun y y' => y'.refs = y.refs) (fun _ => rfl) hx (by simp)
        fun c => State.bus?_putBus s b c _)
  · intro i s s' h hd e
    obtain ⟨t, -, l⟩ | ⟨t, x, y, y', hin, -, -, l, w⟩ | ⟨b, x, v, x', mem, hin, rfl, -, w⟩ := hd.leaves e
    · cases l with
      | opened b x op hx => exact h.openOn hx
      | closed k d x op live hx => exact h.closeOn live hx
      | configured k d d' op live bus => exact (h.putHandle live bus :)
      | moved y => exact h
    · exact h.of_kept (congrArg State.handles l.others :) (congrArg State.nextHandle l.others :)
        (l.bus_of (R := fun y y' => y'.refs = y.refs) hin (fun _ => rfl) w.busKept.refs)
    · exact h.of_kept rfl rfl (exists_bus_of_lookup (R := fun y y' => y'.refs = y.refs) (fun _ => rfl) hin.2.1
        w.busKept.refs fun c => State.bus?_putBus _ b c x')


/-! ### What a step leaves of the platform and of the other buses -/

theorem BusStep.base {m : Bool} {x x' : Bus} (h : BusStep m x x') : x'.base = x.base := by
  cases h with
  | kept hk => exact hk.base
  | opened | closed => simp

/-- Settles O59: no operation writes the parameters or a base address. -/
theorem platformIsFixed : Obligations.PlatformIsFixed := by
  intro s s' hs
  refine ⟨?_, fun b x hx => ?_⟩
  · refine step_keeps (P := fun u => u.cfg = s.cfg) ?_ ?_ ?_ ?_ ?_ rfl hs
    · exact fun _ _ _ _ _ _ h => h
    · exact fun _ m h => (congrArg State.cfg (applyEnv_others m) :).trans h
    · exact fun _ _ h _ => h
    · exact fun _ _ _ h _ _ _ => h
    · intro i u u' h hd e
      obtain ⟨t, -, l⟩ | ⟨t, x, y, y', -, -, -, l, -⟩ | ⟨b, x, v, x', mem, -, rfl, -⟩ := hd.leaves e
      · exact (congrArg State.cfg l.others :).trans h
      · exact (congrArg State.cfg l.others :).trans h
      · exact h
  · have hrel := step_buses hs b
    rw [hx] at hrel
    cases hy : s'.bus? b with
    | none => rw [hy] at hrel; cases hrel
    | some y =>
      rw [hy] at hrel
      cases hrel with
      | some h => exact ⟨y, rfl, h.base⟩

/-- An operation of an agent at work on bus `b` changes no other bus. -/
theorem Dispatched.bus_of_ne {b c : Nat} (hd : Dispatched i s) (hb : s.curBus = some b) (e : exec i s = .next s')
    (hc : c ≠ b) : s'.bus? c = s.bus? c := by
  obtain ⟨t, hr, -⟩ | ⟨t, x, y, y', hin, -, -, l, -⟩ | ⟨b', x, v, x', mem, hin, rfl, -, -⟩ := hd.leaves e
  · simp [State.curBus, hr.1, hr.2] at hb
  · obtain rfl : x.bus = b := by simpa [State.curBus, hin.1, hin.2.1] using hb
    rw [l.bus, if_neg hc]
  · obtain rfl : b' = b := by simpa [hin.1] using hb
    rw [State.bus?_putBus, if_neg hc]
    rfl

theorem step_next_of_sched {e : Event} {r : List Event} (hsched : s.sched = e :: r) (hs : step s = .next s') :
    plan e { s with sched := r } = .done s' ∨
      ∃ i u, plan e { s with sched := r } = .run i u ∧ exec i u = .next s' := by
  obtain ⟨h0, -⟩ | ⟨e', r', he, h⟩ := step_next hs
  · rw [hsched] at h0; cases h0
  · rw [hsched] at he; cases he; exact h

section Inputs

variable {t b : Nat} {a d : Bool} {p : Nat} {u : State}

theorem plan_thread_done (h : plan (.run t a p d) s = .done u) :
    u = { s with cur := .thread t, intr := a, pick := p, dropAck := d } := by
  obtain ⟨m, hm, -⟩ | ⟨t', bs, hm, -⟩ | ⟨t', a', p', d', hm, rfl⟩ | ⟨b, hm, -⟩ := plan_done h
  all_goals cases hm
  rfl

theorem plan_thread_run (h : plan (.run t a p d) s = .run i u) :
    Dispatched i u ∧ u = { s with cur := .thread t, intr := a, pick := p, dropAck := d } := by
  obtain ⟨hd, ⟨t', bs, hm, -⟩ | ⟨t', a', p', d', hm, rfl⟩ | ⟨b, hm, -⟩⟩ := plan_run h
  all_goals cases hm
  exact ⟨hd, rfl⟩

theorem plan_irq_done (h : plan (.irq b) s = .done u) : u = { s with cur := .isr b } ∨
    ∃ x, u = { s with cur := .isr b }.putBus b x := by
  obtain ⟨m, hm, -⟩ | ⟨t', bs, hm, -⟩ | ⟨t', a', p', d', hm, -⟩ | ⟨b', hm, hu⟩ := plan_done h
  all_goals cases hm
  obtain hu | ⟨x, -, -, -, hu⟩ := hu
  · exact .inl hu
  · exact .inr ⟨_, hu⟩

theorem plan_irq_run (h : plan (.irq b) s = .run i u) : Dispatched i u ∧ u = { s with cur := .isr b } := by
  obtain ⟨hd, ⟨t', bs, hm, -⟩ | ⟨t', a', p', d', hm, -⟩ | ⟨b', hm, hu⟩⟩ := plan_run h
  all_goals cases hm
  exact ⟨hd, hu⟩

end Inputs

/-- Settles O58: an operation writes its own bus, and the taking of an interrupt the bus of the interrupt. -/
theorem busesAreIndependent : Obligations.BusesAreIndependent := by
  constructor
  · intro s s' t a p d r x hsched hx hs c hc
    obtain h | ⟨i, u, h, hexec⟩ := step_next_of_sched hsched hs
    · rw [plan_thread_done h]; rfl
    · obtain ⟨hd, rfl⟩ := plan_thread_run h
      exact hd.bus_of_ne (b := x.bus) (congrArg (Option.map Txn.bus) hx) hexec hc
  · intro s s' b r hsched hs c hc
    obtain h | ⟨i, u, h, hexec⟩ := step_next_of_sched hsched hs
    · obtain rfl | ⟨x, rfl⟩ := plan_irq_done h
      · rfl
      · exact (State.bus?_putBus _ b c x).trans (if_neg hc)
    · obtain ⟨hd, rfl⟩ := plan_irq_run h
      exact hd.bus_of_ne (b := b) rfl hexec hc

/-- A thread outside the polled loop runs the ORCH step it is at, once no invocation of its bus is in progress. -/
theorem stepOf_of_planRun {t : Nat} {x : Txn} {y : Bus} {u : State} (hx : (s.thread t).txn = some x)
    (hy : s.bus? x.bus = some y) (h9 : x.step ≠ 9) (h : planRun s t = .run i u) : u = s ∧ stepOf x.step = some i := by
  unfold planRun at h
  simp only [hx, hy] at h
  have hpoll : ¬(!s.interruptMode && x.pollsNow) = true := by simp [Txn.pollsNow_iff, h9]
  cases hv : y.inv with
  | some v => simp only [hv, if_neg hpoll] at h; cases h
  | none =>
    simp only [hv] at h
    split at h
    · next hl =>
      unfold runWord at h
      split at h
      · next hd => cases h; exact ⟨rfl, (decodeStep_ofNat hl).1 hd⟩
      · cases h
    · cases h

/-- Settles O57: a thread that does not hold the lock of its bus is at step 1, which leaves a held lock alone. -/
theorem lockExcludes : Obligations.LockExcludes := by
  intro s s' t u a p d r x y hcoh hsched hx hy hheld htu hs
  have hstep : x.step < 2 := by
    by_contra h2
    have := hcoh.1 u x y hx hy (by omega)
    rw [hheld] at this
    cases this
    exact htu rfl
  obtain h | ⟨i, w, h, hexec⟩ := step_next_of_sched hsched hs
  · rw [plan_thread_done h]
    exact ⟨y.waiters, .inl rfl, hy, fun _ _ => rfl⟩
  · obtain ⟨rfl, hnum⟩ := stepOf_of_planRun (s := { s with cur := .thread u, intr := a, pick := p, dropAck := d, sched := r })
      hx hy (by omega) h
    have h1 : x.step = 1 := by have := stepOf_le hnum; omega
    rw [h1] at hnum
    cases hnum
    obtain ⟨t', x', y', hin, l, -⟩ := execOrchLock_leaves hexec
    obtain ⟨rfl, rfl, rfl⟩ := hin.unique ⟨rfl, hx, hy⟩
    obtain ⟨ws, hws, hacq⟩ := Bus.acquire_of_held (t := u) hheld
    refine ⟨ws, hws, ?_, fun c hc => (l.bus c).trans (if_neg hc)⟩
    rw [l.bus, if_pos rfl, hacq]

/-- Settles O54: the wait ends TimedOut only where no post is pending, so the handshake was not Done. -/
theorem timedOutWasNotDone : Obligations.TimedOutWasNotDone := by
  intro s s' t x y d x' hposted hin hm h9 hw e hx' h10
  have hbus := hposted hm x.bus y hin.2.2
  obtain ⟨t', x₀, y₀, hin', h⟩ := execOrchWait_next e
  obtain ⟨rfl, rfl, rfl⟩ := hin'.unique hin
  have hstays : ∀ u : State, (u.thread t).txn = some x → ¬(u.thread t).txn = some x' := by
    intro u hu hu'
    obtain rfl : x = x' := by simpa [hu] using hu'
    omega
  obtain ⟨hf, -⟩ | ⟨hf, -⟩ | ⟨d', -, e⟩ | ⟨t0, hf, -⟩ := h
  · rw [hw] at hf; cases hf
  · rw [hw] at hf; cases hf
  · obtain ⟨y', -, e⟩ | ⟨hsig, -, -⟩ | rfl := answerWait_next e
    · obtain ⟨-, rfl⟩ | ⟨-, rfl⟩ := recheck_next e
      · obtain rfl : _ = x' := Option.some.inj ((State.thread_putTxn_self _ t _).symm.trans hx')
        have h11 : nextStep (s.cfg.pinConflict x.bus) (some .completed) 9 = 11 := by simp [nextStep]
        exact absurd (h11.symm.trans h10) (by decide)
      · exact absurd hx' (hstays _ hin.2.1)
    · intro hd
      have := hbus hd
      omega
    · exact absurd hx' (hstays _ hin.2.1)
  · rw [hw] at hf; cases hf

end Sys2Proof.Machine

/-! SUPPORT. The functions of the machine that no agent runs alone: the classifier, the interrupt request, the register port;
and the state after reset. -/

namespace Sys2Proof.Machine

/-! ### The bits of CR2 and the classifier's mask -/

@[simp] theorem anyBit_CR2_ITERREN (a : Half) : anyBit a CR2_ITERREN = a.getLsbD 8 := anyBit_twoPow a (i := 8) (by decide)
@[simp] theorem anyBit_CR2_ITEVTEN (a : Half) : anyBit a CR2_ITEVTEN = a.getLsbD 9 := anyBit_twoPow a (i := 9) (by decide)
@[simp] theorem anyBit_CR2_ITBUFEN (a : Half) : anyBit a CR2_ITBUFEN = a.getLsbD 10 := anyBit_twoPow a (i := 10) (by decide)

/-- A mask that keeps a flag does not change its test. -/
theorem anyBit_and_of_subset {w : Nat} {a m n : BitVec w} (h : n &&& m = m) : anyBit (a &&& n) m = anyBit a m := by
  rw [anyBit, anyBit, BitVec.and_assoc, h]

/-- Settles O8: each enable is one bit of CR2, each group a mask of SR1. -/
theorem interruptRequest : Obligations.InterruptRequest := by
  intro cr2 sr1
  simp only [irqRequest, Bool.or_eq_true, Bool.and_eq_true, anyBit_CR2_ITEVTEN, anyBit_CR2_ITBUFEN, anyBit_CR2_ITERREN,
    anyBit_iff, and_assoc, or_assoc]
  rfl

/-! ### The classifier (R291 to R295) -/

/-- A flag that is set has an error of its own (R292). -/
theorem classifyErrors_eq_ok_iff {st : Word32} : classifyErrors st = .ok ↔ anyBit st S_ERRORS = false := by
  refine ⟨fun h => ?_, fun h => classifyErrors_of_clear (anyBit_eq_false_iff.mp h)⟩
  have hsplit : S_ERRORS = S_BERR ||| S_ARLO ||| S_AF ||| S_OVR ||| S_PECERR ||| S_TIMEOUT ||| S_SMBALERT := by decide
  unfold classifyErrors at h
  split_ifs at h
  simp_all only [anyBit_or, Bool.not_eq_true, Bool.or_false]

theorem classify_eq_ok_iff {st : Word32} :
    classify st = .ok ↔ anyBit st S_ERRORS = false ∧ anyBit st S_BUSY = false := by
  cases he : anyBit st S_ERRORS with
  | true =>
    have hne : classifyErrors st ≠ .ok := by simp [classifyErrors_eq_ok_iff, he]
    simp [classify, busyCheck, he, hne]
  | false =>
    rw [classify_of_clear (anyBit_eq_false_iff.mp he)]
    cases anyBit st S_BUSY <;> simp

/-- Settles O45: the classifier tests the seven error flags and BUSY, and answers Ok when it finds none. -/
theorem classifiesOk : Obligations.ClassifiesOk := by
  constructor
  · intro st
    have hmask : S_ERRORS ||| S_BUSY = 0x0002DF00#32 := by decide
    rw [classify_eq_ok_iff, ← Bool.or_eq_false_iff, ← anyBit_or, anyBit_eq_false_iff, hmask]
  · intro st
    simp (disch := decide) only [classify, busyCheck, classifyErrors, anyBit_and_of_subset]

/-! ### The register port (20_memory.md R72 to R75) -/

theorem regAt_of_width {off width : Nat} (h : width ≠ 16) : regAt off width = .error .badRegisterWidth := if_pos h

theorem Reg.ofOffset?_offset {off : Nat} {r : Reg} (h : Reg.ofOffset? off = some r) : off % 4 = 0 ∧ off ≤ 0x20 := by
  unfold Reg.ofOffset? at h
  split at h <;> cases h <;> decide

theorem regAt_of_unmapped {off : Nat} (h : off % 4 ≠ 0 ∨ 0x20 < off) : regAt off 16 = .error .unmappedRegister := by
  have hnone : Reg.ofOffset? off = none := by
    by_contra hne
    obtain ⟨r, hr⟩ := Option.ne_none_iff_exists'.mp hne
    have := Reg.ofOffset?_offset hr
    omega
  simp [regAt, hnone]

section Port

variable {x : Bus} {off width : Nat} {v clr set : Half} {f : Fault}

theorem portRead_of_error (h : regAt off width = .error f) : x.portRead off width = .error f := by
  rw [Bus.portRead, h]

theorem portWrite_of_error (h : regAt off width = .error f) : x.portWrite off width v = .error f := by
  rw [Bus.portWrite, h]

theorem portModify_of_read {r : Half} (h : x.portRead off width = .ok r) :
    x.portModify off width clr set = x.portWrite off width ((r &&& ~~~clr) ||| set) := by
  rw [Bus.portModify, h]
  rfl

theorem portModify_of_error (h : x.portRead off width = .error f) : x.portModify off width clr set = .error f := by
  rw [Bus.portModify, h]

/-- SR1 is the low half of the combined status word. -/
theorem combine_low {sr1 sr2 : Half} {n : Nat} (h : n < 16) : (combine sr1 sr2).getLsbD n = sr1.getLsbD n := by
  have : n < 32 := by omega
  simp [combine, h, this]

/-- SR2 is its high half. -/
theorem combine_high {sr1 sr2 : Half} {n : Nat} (h : n < 16) : (combine sr1 sr2).getLsbD (n + 16) = sr2.getLsbD n := by
  have : n + 16 < 32 := by omega
  simp [combine, this]

end Port

/-- Settles O46: the port faults by width and offset; at the nine offsets it is the register itself. -/
theorem registerPort : Obligations.RegisterPort := by
  intro x v
  refine ⟨fun off w hw => ⟨portRead_of_error (regAt_of_width hw), portWrite_of_error (regAt_of_width hw)⟩,
    fun off ho => ⟨portRead_of_error (regAt_of_unmapped ho), portWrite_of_error (regAt_of_unmapped ho)⟩,
    fun hv => if_pos ⟨rfl, hv⟩, ?_, rfl, rfl, rfl, rfl, rfl, rfl, rfl, rfl, rfl, rfl, rfl, rfl, rfl, rfl, rfl, rfl, rfl,
    fun clr set => ⟨rfl, rfl⟩, fun off w clr set r h => portModify_of_read h, fun off w clr set f h => portModify_of_error h,
    fun n hn => ⟨combine_low hn, combine_high hn⟩⟩
  exact congrArg Except.ok (Bus.writeReg_sr1 0#16)

/-! ### The state after reset (R340) -/

/-- The buses of a platform are numbered in the order of its list. -/
theorem kget_resetBuses (ps : List BusParam) : ∀ n b,
    kget (resetBuses n ps) b = if n ≤ b then (ps[b - n]?).map Bus.reset else none := by
  induction ps with
  | nil => intro n b; simp [resetBuses]
  | cons p ps ih =>
    intro n b
    rw [resetBuses, kget]
    obtain rfl | hne := eq_or_ne n b
    · simp
    · rw [if_neg hne, ih]
      by_cases hlt : n < b
      · have hsub : b - n = b - (n + 1) + 1 := by omega
        rw [if_pos (by omega : n + 1 ≤ b), if_pos hlt.le, hsub, List.getElem?_cons_succ]
      · rw [if_neg (by omega), if_neg (by omega)]

variable {c : Config} {b : Nat} {x : Bus}

theorem bus?_resetWith (c : Config) (b : Nat) : (State.resetWith c).bus? b = (c.busParam? b).map Bus.reset := by
  refine (kget_resetBuses c.buses 1 b).trans ?_
  unfold Config.busParam?
  by_cases h : b = 0
  · simp [h]
  · rw [if_pos (by omega), if_neg h]

theorem of_bus?_resetWith (h : (State.resetWith c).bus? b = some x) : ∃ p, c.busParam? b = some p ∧ Bus.reset p = x := by
  rwa [bus?_resetWith, Option.map_eq_some_iff] at h

theorem thread_resetWith (c : Config) (t : Nat) : (State.resetWith c).thread t = ⟨none, none⟩ := rfl

theorem exists_busParam?_iff : (∃ p, c.busParam? b = some p) ↔ 1 ≤ b ∧ b ≤ c.nbus := by
  unfold Config.busParam? Config.nbus
  by_cases h : b = 0
  · simp [h]
  · have hlt : b - 1 < c.buses.length ↔ 1 ≤ b ∧ b ≤ c.buses.length := by omega
    simp only [if_neg h, List.getElem?_eq_some_iff, exists_comm (α := BusParam), exists_eq', exists_prop, and_true, hlt]

/-- Settles O48: every bus of the platform, and no other, is there with its reset value. -/
theorem resetState : Obligations.ResetState := by
  intro c
  refine ⟨rfl, rfl, rfl, thread_resetWith c, fun b => ?_, fun b x hx => ?_⟩
  · simp only [bus?_resetWith, Option.map_eq_some_iff, ← exists_busParam?_iff]
    exact ⟨fun ⟨x, p, hp, _⟩ => ⟨p, hp⟩, fun ⟨p, hp⟩ => ⟨_, p, hp, rfl⟩⟩
  · obtain ⟨p, hp, rfl⟩ := of_bus?_resetWith hx
    refine ⟨?_, rfl, rfl, rfl, rfl, rfl, rfl, rfl, rfl, rfl, rfl, rfl, rfl, rfl, rfl, rfl, rfl, rfl, rfl, rfl, rfl⟩
    rw [hp, Config.pinConflict, hp]
    rfl

/-- Settles O49: after reset every register is 0 but TRISE, no thread is inside a command and there is no handle. -/
theorem invariantsAtReset : Obligations.InvariantsAtReset := by
  intro c
  have hbus : ∀ {Q : Nat → Bus → Prop}, (∀ b p, Q b (Bus.reset p)) → ∀ b x, (State.resetWith c).bus? b = some x → Q b x := by
    intro Q hQ b x hx
    obtain ⟨p, -, rfl⟩ := of_bus?_resetWith hx
    exact hQ b p
  refine ⟨hbus fun b p => ?_, rfl, ⟨?_, hbus fun b p => ?_⟩, fun _ => hbus fun b p h => ?_, hbus fun b p => ?_, rfl, ?_,
    hbus fun _ _ => rfl⟩
  · rw [Bus.regsLegal_iff]
    simp [Bus.reset]
  · intro t x y hx
    rw [thread_resetWith] at hx
    cases hx
  · exact ⟨fun h => absurd rfl h, fun h => absurd rfl h, fun h => absurd BitVec.zero_and h⟩
  · cases h
  · exact ⟨fun h => absurd h (lt_irrefl 0), fun h => absurd BitVec.zero_and h⟩
  · exact fun p hp => absurd hp List.not_mem_nil

end Sys2Proof.Machine

/-! SUPPORT. The proofs about the sequencer (30_encoding.md R105, 41_transfer_state_machine.md): the order of the dispatch,
the message as an operation, EV.START, the fetch of a descriptor. -/

namespace Sys2Proof.Machine

variable {s : State} {b : Nat} {x : Bus} {v : Invocation} {m : Message} {i : Instr}

/-! ### The order of the dispatch (R105) -/

section Dispatch

variable {k : DispatchKey}

/-- The last of the chain of stage A, on the bits. -/
theorem dispatchA_eq_evRx_bits : dispatchA k = .evRx ↔ k.snap.getLsbD 0 = false ∧ k.snap.getLsbD 6 = true ∧
    k.snap.getLsbD 1 = false ∧ (k.flags.getLsbD 0 = false → k.snap.getLsbD 7 = false) := by
  rw [dispatchA_eq_evRx, Ne, Ne, Ne, dispatchA_eq_evStart, dispatchA_eq_evTx, dispatchA_eq_evRxAddr]
  cases k.snap.getLsbD 0 <;> cases k.snap.getLsbD 1 <;> cases k.flags.getLsbD 0 <;> simp

/-- Stage A gives way to stage B when none of its four conditions holds. -/
theorem dispatchA_eq_dispatchB (hsb : k.snap.getLsbD 0 = false) (hrxne : k.snap.getLsbD 6 = false)
    (haddr : k.snap.getLsbD 1 = false) (htxe : k.flags.getLsbD 0 = false → k.snap.getLsbD 7 = false) :
    dispatchA k = dispatchB k := by
  have htx : (!k.flags.getLsbD 0 && k.snap.getLsbD 7) = false := by
    cases hf : k.flags.getLsbD 0
    · exact htxe hf
    · rfl
  simp only [dispatchA, anyBit_S_SB, anyBit_S_ADDR, anyBit_S_TXE, anyBit_S_RXNE, anyBit_M_READ, anyBit_or, hsb, htx,
    haddr, hrxne, Bool.false_or, Bool.and_false, Bool.false_eq_true, if_false]

theorem dispatchB_eq_dispatchC (h : k.interrupt = false ∨ k.dcnt < 0) : dispatchB k = dispatchC k := by
  obtain h | h := h
  · simp [dispatchB, h]
  · have h0 : ¬0 < k.dcnt := by omega
    have h1 : ¬k.dcnt = 0 := by omega
    simp [dispatchB, h0, h1]

theorem dispatchC_eq_dispatchD (h : 0 < k.dcnt ∨ k.snap.getLsbD 2 = false) : dispatchC k = dispatchD k := by
  obtain h | h := h
  · simp [dispatchC, Int.not_le.mpr h]
  · simp only [dispatchC, anyBit_S_BTF, h, Bool.and_false, Bool.false_eq_true, if_false]

end Dispatch

/-- Settles O4: the conditions of each stage on the dispatch value, and where each stage gives way to the next. -/
theorem dispatchOrder : Obligations.DispatchOrder := by
  intro s x w
  refine ⟨?_, ?_, ?_, ?_, fun hsb hrxne haddr htxe i => ?_, ?_, ?_, fun h i => ?_, ?_, fun h i => ?_,
    fun p fl hc hp hf => ⟨?_, ?_⟩, fun hc => ⟨?_, ?_⟩, ?_, ?_, (selects_fin rfl).mpr rfl⟩
  · rw [selects_stageA rfl, dispatchA_eq_evStart]; rfl
  · rw [selects_stageA rfl, dispatchA_eq_evTx]; rfl
  · rw [selects_stageA rfl, dispatchA_eq_evRxAddr]; rfl
  · rw [selects_stageA rfl, dispatchA_eq_evRx_bits]; rfl
  · rw [selects_stageA rfl, selects_stageB rfl,
      dispatchA_eq_dispatchB (k := dispatchValue s x ⟨w, .a⟩ false) hsb hrxne haddr htxe]
    rfl
  · rw [selects_stageB rfl, dispatchB_eq_postBufEn, ← State.interruptMode_iff]; rfl
  · rw [selects_stageB rfl, dispatchB_eq_postBufDis, ← State.interruptMode_iff]; rfl
  · have hb : s.interruptMode = false ∨ x.dcnt < 0 := h.imp_left fun hm => by simp [State.interruptMode, hm]
    rw [selects_stageB rfl, selects_stageC rfl, dispatchB_eq_dispatchC hb]; rfl
  · rw [selects_stageC rfl, dispatchC_eq_postBtf]; rfl
  · rw [selects_stageC rfl, selects_stageD rfl, dispatchC_eq_dispatchD h]; rfl
  · rw [selects_next rfl hc hp hf]; split <;> simp [*]
  · rw [selects_next rfl hc hp hf]; split <;> simp_all
  · rw [selects_last rfl hc]; split <;> simp [*]
  · rw [selects_last rfl hc]; split <;> simp_all
  · rw [selects_stageD rfl, dispatchD_eq_postErr, anyBit_iff]; rfl
  · rw [selects_stageD rfl, dispatchD_eq_postLatch, anyBit_eq_false_iff]; rfl

/-! ### A message as an operation (R162, R174) -/

theorem Bus.toStage_of_inv {st : Stage} (h : x.inv = some v) : x.toStage st = { x with inv := some ⟨v.snap, st⟩ } := by
  simp [Bus.toStage, h]

/-- After a change of the bus that keeps the invocation, the agent is still in it. -/
theorem InInvocation.putBus {y : Bus} (h : InInvocation s b x v) (hy : y.inv = x.inv) :
    InInvocation (s.putBus b y) b y v :=
  ⟨h.1, by simp, hy.trans h.2.2⟩

section Message

variable (h : InInvocation s b x v)
include h

theorem takeUp_of_in : takeUp m s = .next (s.putBus b (x.startMessage m)) := withInvocation_of_in h _

theorem takeUpNoRestart_start (hs : v.stage ≠ .sub) :
    takeUpNoRestart m s = .next (s.putBus b (x.startMessage m)) :=
  (withInvocation_of_in h _).trans (if_neg hs)

theorem takeUpNoRestart_splice (hs : v.stage = .sub) :
    takeUpNoRestart m s = .next (s.putBus b (x.spliceMessage s.interruptMode m)) :=
  (withInvocation_of_in h _).trans (if_pos hs)

/-- Away from the splice every message begins with its START. -/
theorem exec_message_start (hi : i.message? = some m) (hs : v.stage ≠ .sub) :
    exec i s = .next (s.putBus b (x.startMessage m)) := by
  cases i
  case msgW | msgR | msgWTen | msgRTen => cases hi; exact takeUp_of_in h
  case msgWNr | msgRNr | msgWTenNr | msgRTenNr => cases hi; exact takeUpNoRestart_start h hs
  all_goals cases hi

/-- At the splice a message of a no-restart kind is spliced. -/
theorem exec_message_splice {a r : Half} {buf : Option Nat} {n : Nat} (hs : v.stage = .sub)
    (hk : i ∈ [Instr.msgWNr a r buf n, .msgRNr a r buf n, .msgWTenNr a r buf n, .msgRTenNr a r buf n])
    (hi : i.message? = some m) : exec i s = .next (s.putBus b (x.spliceMessage s.interruptMode m)) := by
  simp only [List.mem_cons, List.not_mem_nil, or_false] at hk
  obtain rfl | rfl | rfl | rfl := hk <;> cases hi <;> exact takeUpNoRestart_splice h hs

theorem exec_evStart_take {p : MsgPtr} (hp : x.msgv = some p) (hc : 1 ≤ x.msgc) (hm : fetchMessage s.mem p = .ok m) :
    exec .evStart s
      = .next (s.putBus b (((x.trace s.cfg.traceEn v.snap .start x.msgc).startMessage m).toStage .b)) := by
  refine (withInvocation_of_in h _).trans ?_
  simp only [hp, if_neg (Int.not_lt.mpr hc), hm, orFault]

theorem exec_evStart_fault {p : MsgPtr} {e : Fault} (hp : x.msgv = some p) (hc : 1 ≤ x.msgc)
    (hm : fetchMessage s.mem p = .error e) : exec .evStart s = .fault e := by
  refine (withInvocation_of_in h _).trans ?_
  simp only [hp, if_neg (Int.not_lt.mpr hc), hm, orFault]

theorem exec_evStart_nothing (hn : x.msgv = none ∨ x.msgc < 1) : exec .evStart s = .fault .startWithoutMessage := by
  refine (withInvocation_of_in h _).trans ?_
  cases hp : x.msgv with
  | none => rfl
  | some p => exact if_pos (hn.resolve_left (by simp [hp]))

theorem exec_postBtfSplice_fault {p : MsgPtr} {e : Fault} (hp : x.msgv = some p) (hm : fetchMessage s.mem p = .error e) :
    exec .postBtfSplice s = .fault e := by
  refine (withInvocation_of_in h _).trans ?_
  simp only [hp, fetchCursor, hm, orFault]

end Message

/-- A message with the no-restart flag is an operation of a no-restart kind (R103). -/
theorem instr_of_isNoRestart (h : isNoRestart m.flags = true) : ∃ a r buf n,
    m.instr ∈ [Instr.msgWNr a r buf n, .msgRNr a r buf n, .msgWTenNr a r buf n, .msgRTenNr a r buf n] := by
  have hbit : m.flags &&& kindMask &&& 0x0080#16 ≠ 0#16 := by
    rw [BitVec.and_assoc]
    exact anyBit_iff.mp h
  refine ⟨m.addr, m.flags &&& reservedFlagMask, m.buffer, m.length, ?_⟩
  have hk := kind_mem m.flags
  generalize hkind : m.flags &&& kindMask = kind at hk hbit
  simp only [List.mem_cons, List.not_mem_nil, or_false] at hk
  obtain rfl | rfl | rfl | rfl | rfl | rfl | rfl | rfl := hk
  case inl | inr.inl | inr.inr.inr.inr.inl | inr.inr.inr.inr.inr.inl => exact absurd (by decide) hbit
  all_goals simp [Message.instr, hkind]

/-- Settles O9: both actions take the fetched message up as its operation does, and move the invocation on. -/
theorem fetchedMessageRuns : Obligations.FetchedMessageRuns := by
  refine ⟨fun s b x v p m h hs hp hc hm => ?_, fun s b x v p m h hs hp hm hnr => ?_⟩
  · have h' := h.putBus (y := x.trace s.cfg.traceEn v.snap .start x.msgc) (by simp)
    refine ⟨_, (x.trace s.cfg.traceEn v.snap .start x.msgc).startMessage m,
      exec_message_start h' (flagsChooseTheKind m).1 (by simp [hs]), by simp, ?_⟩
    rw [exec_evStart_take h hp hc hm, Bus.toStage_of_inv (v := v) (by simp [h.inv_eq]), State.putBus_putBus,
      State.putBus_putBus]
  · obtain ⟨a, r, buf, n, hk⟩ := instr_of_isNoRestart hnr
    refine ⟨_, x.spliceMessage s.interruptMode m, exec_message_splice h hs hk (flagsChooseTheKind m).1,
      by simp, ?_⟩
    rw [exec_postBtfSplice h hp hm, Bus.toStage_of_inv (v := v) (by simp [h.inv_eq]), State.putBus_putBus]

end Sys2Proof.Machine

/-! SUPPORT. What taking up a message writes, the fetch of a descriptor (20_memory.md), the step that an input leads to. -/

namespace Sys2Proof.Machine

variable {s : State} {b : Nat} {x : Bus} {v : Invocation} {m : Message} {i : Instr}

/-! ### What taking up a message writes (R162 to R164, R174) -/

theorem addressByte_eq (m : Message) : addressByte m =
    if m.flags &&& 0x0002#16 = 0#16 then ((m.addr <<< 1) ||| (m.flags &&& 0x0001#16)).setWidth 8 else 0x00#8 := by
  simp [addressByte, isTen, anyBit, M_TEN, M_READ, addr10Placeholder]

theorem Bus.startMessage_eq (x : Bus) (m : Message) : x.startMessage m = { x with
    ptr := m.buffer, dcnt := (m.length : Int), flags := m.flags
    txLog := x.txLog ++ [if m.flags &&& 0x0002#16 = 0#16
      then ((m.addr <<< 1) ||| (m.flags &&& 0x0001#16)).setWidth 8 else 0x00#8]
    cr1 := if 1 < m.length ∧ m.flags &&& 0x0001#16 ≠ 0#16 then x.cr1 ||| 0x0400#16 else x.cr1
    msgv := x.msgv.map MsgPtr.next, msgc := x.msgc - 1 } := by
  rw [← addressByte_eq]
  simp [Bus.startMessage, Bus.loadCursor, Bus.preArmAck, Bus.advanceCursor, Bus.writeReg, isRead, anyBit, M_READ, CR1_ACK]

theorem Bus.spliceMessage_eq (x : Bus) (m : Message) : x.spliceMessage s.interruptMode m = { x with
    ptr := m.buffer, dcnt := (m.length : Int), flags := m.flags, msgv := x.msgv.map MsgPtr.next, msgc := x.msgc - 1
    cr2 := if s.cfg.mode = .interrupt then x.cr2 ||| 0x0400#16 else x.cr2 } := by
  simp [Bus.spliceMessage, Bus.loadCursor, Bus.advanceCursor, Bus.setItbufen, CR2_ITBUFEN]

/-- Settles O19: the effect of a message by whether it is taken up at START-sent or spliced. -/
theorem messageResult : Obligations.MessageResult := by
  refine ⟨fun s b x v a r buf n i h hs hk => ?_, fun s b x v a r buf n i h hs hk => ?_⟩
  · have hfl : ∃ fl, i.message? = some ⟨a, fl, buf, n⟩ := by
      simp only [List.mem_cons, List.not_mem_nil, or_false] at hk
      obtain rfl | rfl | rfl | rfl | rfl | rfl | rfl | rfl := hk <;> exact ⟨_, rfl⟩
    obtain ⟨fl, hi⟩ := hfl
    exact ⟨fl, hi, by rw [exec_message_start h hi hs, Bus.startMessage_eq]⟩
  · have hfl : ∃ fl, i.message? = some ⟨a, fl, buf, n⟩ := by
      simp only [List.mem_cons, List.not_mem_nil, or_false] at hk
      obtain rfl | rfl | rfl | rfl := hk <;> exact ⟨_, rfl⟩
    obtain ⟨fl, hi⟩ := hfl
    exact ⟨fl, hi, by rw [exec_message_splice h hs hk hi, Bus.spliceMessage_eq]⟩

/-- Settles O20: SB selects EV.START, which records the start and takes up the message; with none it is a fault. -/
theorem evStartResult : Obligations.EvStartResult := by
  intro s b x v h
  refine ⟨fun hs => ?_, fun p m hp hc hm => ?_, exec_evStart_nothing h⟩
  · rw [selects_stageA hs, dispatchA_eq_evStart]; rfl
  · rw [exec_evStart_take h hp hc hm, Bus.toStage_of_inv (v := v) (by simp [h.inv_eq]), Bus.startMessage_eq]
    simp [Bus.trace, hp]

/-! ### The fetch of a descriptor (R77, R79, R101) -/

section Fetch

variable {mem : List Host.Cell} {a : Nat} {f : Nat → Byte}

theorem fetchFlags_misaligned (h : a % 4 ≠ 0) : fetchFlags mem (.mem a) = .error .badDescriptor := by
  simp [fetchFlags, h]

/-- The twelve bytes of a descriptor, as they are in memory. -/
theorem fetchMessage_of_bytes (ha : a % 4 = 0) (hr : ∀ k, k < 12 → memRead mem (a + k) = .ok (f k)) :
    fetchMessage mem (.mem a) = messageOfBytes ((List.range 12).map f) := by
  simp [fetchMessage, ha, readBytes_ok hr]

theorem fetchFlags_of_bytes (ha : a % 4 = 0) (h2 : memRead mem (a + 2) = .ok (f 2)) (h3 : memRead mem (a + 3) = .ok (f 3)) :
    fetchFlags mem (.mem a) = .ok (BitVec.ofNat 16 ((f 2).toNat + 256 * (f 3).toNat)) := by
  simp [fetchFlags, ha, readBytes, h2, h3, fromLe16]

theorem fetchMessage_unwritten {k : Nat} (ha : a % 4 = 0) (hk : k < 12)
    (hr : memRead mem (a + k) = .error .unwrittenState) : fetchMessage mem (.mem a) = .error .unwrittenState := by
  simp [fetchMessage, ha, readBytes_unwritten hk hr]

theorem fetchFlags_unwritten {k : Nat} (ha : a % 4 = 0) (hk : k < 2)
    (hr : memRead mem (a + 2 + k) = .error .unwrittenState) : fetchFlags mem (.mem a) = .error .unwrittenState := by
  simp [fetchFlags, ha, readBytes_unwritten hk hr]

end Fetch

theorem messageOfBytes_range {f : Nat → Byte} {p n : Nat}
    (hp : p = (f 4).toNat + 256 * (f 5).toNat + 65536 * (f 6).toNat + 16777216 * (f 7).toNat)
    (hn : n = (f 8).toNat + 256 * (f 9).toNat + 65536 * (f 10).toNat + 16777216 * (f 11).toNat) :
    messageOfBytes ((List.range 12).map f) = if n < 2147483648 then
      .ok ⟨BitVec.ofNat 16 ((f 0).toNat + 256 * (f 1).toNat), BitVec.ofNat 16 ((f 2).toNat + 256 * (f 3).toNat),
        if p = 0 then none else some p, n⟩
    else .error .badDescriptor := by
  have hrange : (List.range 12).map f = [f 0, f 1, f 2, f 3, f 4, f 5, f 6, f 7, f 8, f 9, f 10, f 11] := rfl
  simp only [hrange, messageOfBytes, descriptorOf, fromLe16, fromLe32, toPointer, ← hp, ← hn]
  by_cases hlen : n < 2147483648
  · simp only [if_pos hlen]
  · simp only [if_neg hlen]

/-- While the branch of POST.BTF needs a next message that cannot be read, the invocation stops. -/
theorem planIrq_stop {p : MsgPtr} {e : Fault} (hm : s.cfg.mode = .interrupt) (hx : s.bus? b = some x) (hv : x.inv = some v)
    (hs : v.stage = .sub) (hc : 0 < x.msgc) (hp : x.msgv = some p) (hf : fetchFlags s.mem p = .error e) :
    planIrq s b = .stop e := by
  have hkey : actionKey s x v = .error e := by simp [actionKey, hs, hc, hp, fetchCursor, hf]
  simp only [planIrq, State.interruptMode_iff.mpr hm, if_true, hx, hv, planAction, hkey]

/-- Settles O60: the pointer's alignment first, then the bytes that are read, then the length. -/
theorem descriptorFetch : Obligations.DescriptorFetch := by
  refine ⟨fun mem a ha => ⟨fetchMessage_misaligned ha, fetchFlags_misaligned ha⟩,
    fun mem a f ha hr p n hp hn => ⟨fun hlen => ?_, fun hlen => ?_⟩,
    fun mem a f ha h2 h3 => fetchFlags_of_bytes ha h2 h3,
    fun mem a k ha hk hr => ⟨fetchMessage_unwritten ha hk hr, ?_⟩, fun a => rfl, fun mem m r => ⟨rfl, rfl, rfl⟩,
    fun s b x v p e h hp hf => ⟨fun hc => exec_evStart_fault h hp hc hf, exec_postBtfSplice_fault h hp hf⟩,
    fun s b r x v p e hsched hm hx hv hs hc hp hf => ?_⟩
  · rw [fetchMessage_of_bytes ha hr, messageOfBytes_range hp hn, if_pos hlen]
  · rw [fetchMessage_of_bytes ha hr, messageOfBytes_range hp hn, if_neg (by omega)]
  · rintro (rfl | rfl)
    · exact fetchFlags_unwritten ha (k := 0) (by decide) hr
    · exact fetchFlags_unwritten ha (k := 1) (by decide) hr
  · have hstop := planIrq_stop (s := { s with sched := r, cur := .isr b }) hm hx hv hs hc hp hf
    simp only [step, hsched, plan, hstop, carryOut]

/-! ### The step -/

theorem step_of_plan {e : Event} {r : List Event} (h : s.sched = e :: r) :
    step s = carryOut (plan e { s with sched := r }) := by
  simp only [step, h]

/-- Settles O5: the plan of each input runs the operation that its word decodes to. -/
theorem stepRunsDecoded : Obligations.StepRunsDecoded := by
  refine ⟨fun s t bs r i hs hn hd => ?_, fun s t a p d r x y i hs hx hy hv hl hd => ?_,
    fun s b r x v k i hs hm hx hv hk hd => ?_, fun s t a p d r x y v k i t0 hs hm hx hy hv h9 hw hk hd => ?_⟩
  · rw [step_of_plan hs, plan, planIssue_of (s := { s with sched := r }) hn hd]; rfl
  · rw [step_of_plan hs, plan, planRun_step (s := { s with cur := .thread t, intr := a, pick := p, dropAck := d, sched := r })
      hx hy hv hl hd]; rfl
  · rw [step_of_plan hs, plan, planIrq_action (s := { s with cur := .isr b, sched := r }) hm hx hv hk hd]; rfl
  · rw [step_of_plan hs, plan, planRun_action
      (s := { s with cur := .thread t, intr := a, pick := p, dropAck := d, sched := r }) hm hx hy hv h9 hw hk hd]; rfl

/-- Settles O6: with no input the step answers its own state. -/
theorem passiveWithoutInput : Obligations.PassiveWithoutInput := by
  intro s hs
  simp only [step, hs]

theorem Bus.irqEnabledNow_iff (h : x.inv = none) : x.irqEnabledNow = true ↔
    irqRequest x.cr2 x.sr1 = true ∧ 0 < x.refs ∧ x.irqAttached = true ∧ x.irqEnabled = true := by
  simp [Bus.irqEnabledNow, Bus.irq, Bus.powered, h, and_assoc]

/-- Settles O7: without an invocation in progress the interrupt context takes the interrupt when that is enabled. -/
theorem interruptTaken : Obligations.InterruptTaken := by
  intro s b r x hs hm hx hv
  have hplan := planIrq_take (s := { s with cur := .isr b, sched := r }) hm hx hv
  rw [← Bus.irqEnabledNow_iff hv]
  refine ⟨fun he => ?_, fun he => ?_⟩
  · rw [step_of_plan hs, plan, hplan, if_pos he]; rfl
  · rw [step_of_plan hs, plan, hplan, if_neg he]; rfl

end Sys2Proof.Machine

/-! SUPPORT. The proofs about ORCH and CLK (42_transaction_orchestrator.md, 40_clock_config.md): the lock and its release, the
answers of step 9, the classification, and the mode that step 7 runs. -/

namespace Sys2Proof.Machine

/-! ### The lock (20_memory.md R88) -/

section Lock

variable {y : Bus} {t u n : Nat}

theorem Bus.acquire_of_free (h : y.lock = .free) : y.acquire t = { y with lock := .held t } := by
  simp [Bus.acquire, h]

theorem Bus.acquire_of_own (h : y.lock = .held t) : y.acquire t = y := by
  cases y
  cases h
  simp [Bus.acquire]

theorem Bus.acquire_of_other (h : y.lock = .held u) (hu : u ≠ t) :
    y.acquire t = { y with waiters := if t ∈ y.waiters then y.waiters else y.waiters ++ [t] } := by
  simp [Bus.acquire, h, hu]

theorem Bus.release_of_none (h : y.waiters = []) : y.release n = { y with lock := .free } := by
  simp [Bus.release, chooseWaiter, h]

theorem Bus.release_to (h : chooseWaiter y.waiters n = some u) :
    y.release n = { y with lock := .held u, waiters := y.waiters.filter (· ≠ u) } := by
  simp [Bus.release, h]

theorem exists_chooseWaiter {ws : List Nat} (h : ws ≠ []) : ∃ u, u ∈ ws ∧ chooseWaiter ws n = some u := by
  have hlt : n % ws.length < ws.length := Nat.mod_lt _ (List.length_pos_iff.mpr h)
  exact ⟨_, List.getElem_mem hlt, List.getElem?_eq_getElem hlt⟩

/-- Every blocked thread can be chosen. -/
theorem chooseWaiter_idxOf {ws : List Nat} (h : u ∈ ws) : chooseWaiter ws (ws.idxOf u) = some u := by
  have hlt : ws.idxOf u < ws.length := List.idxOf_lt_length_of_mem h
  rw [chooseWaiter, Nat.mod_eq_of_lt hlt, List.getElem?_eq_getElem hlt, List.getElem_idxOf]

end Lock

variable {s : State} {t n : Nat} {x : Txn} {y : Bus} {i : Instr} {o : WaitOutcome}

section Steps

variable (h : InTxn s t x y)
include h

theorem exec_orchLock_go (hl : (y.acquire t).lock = .held t) : exec .orchLock s
    = .next ((s.putBus x.bus (y.acquire t)).putTxn t { x with step := if s.cfg.pinConflict x.bus = true then 2 else 3 }) :=
  (withTxn_of_inTxn h _).trans (if_pos hl)

theorem exec_orchLock_stay (hl : (y.acquire t).lock ≠ .held t) :
    exec .orchLock s = .next (s.putBus x.bus (y.acquire t)) :=
  (withTxn_of_inTxn h _).trans (if_neg hl)

theorem exec_orchUnlock : exec .orchUnlock s = .next ((s.putBus x.bus (y.release s.pick)).raise t x.result) :=
  withTxn_of_inTxn h _

theorem exec_orchWait_blocked {d : Nat} (hw : x.wait = .blocked d) : exec .orchWait s = answerWait s t x y d := by
  refine (withTxn_of_inTxn h _).trans ?_
  simp only [hw]

theorem exec_orchWait_polling {t0 : Nat} (hw : x.wait = .polling t0) : exec .orchWait s = pollAgain s t x y t0 := by
  refine (withTxn_of_inTxn h _).trans ?_
  simp only [hw]

theorem exec_orchMask :
    exec .orchMask s = .next (s.putTxn t { x with st := y.status &&& 0x0000FFFF#32, step := 12 }) :=
  withTxn_of_inTxn h _

theorem exec_orchClassify : exec .orchClassify s = .next (s.putTxn t { x with result := classifyErrors x.st, step := 13 }) :=
  withTxn_of_inTxn h _

theorem exec_orchBusyCheck :
    exec .orchBusyCheck s = .next (s.putTxn t { x with result := busyCheck x.st x.result, step := 14 }) :=
  withTxn_of_inTxn h _

end Steps

/-- Settles O29: the lock as the thread finds it decides. -/
theorem lockResult : Obligations.LockResult := by
  intro s t x y h
  refine ⟨fun hl => ?_, fun hl => ?_, fun u hl hu => ?_⟩
  · have he := Bus.acquire_of_free (t := t) hl
    rw [exec_orchLock_go h (by rw [he]), he]
  · have he := Bus.acquire_of_own hl
    rw [exec_orchLock_go h (by rw [he, hl]), he]
  · have he := Bus.acquire_of_other hl hu
    rw [exec_orchLock_stay h (by simp [he, hl, hu]), he]

/-- Settles O39: without waiters the lock is free; otherwise it goes to the waiter at the place the input picks. -/
theorem unlockResult : Obligations.UnlockResult := by
  intro s t x y h
  refine ⟨fun hw => ?_, fun hw => ?_, fun u hu => ⟨y.waiters.idxOf u, ?_⟩⟩
  · rw [exec_orchUnlock h, Bus.release_of_none hw]; rfl
  · obtain ⟨u, hu, hc⟩ := exists_chooseWaiter (n := s.pick) hw
    exact ⟨u, hu, by rw [exec_orchUnlock h, Bus.release_to hc]; rfl⟩
  · have h' : InTxn { s with pick := y.waiters.idxOf u } t x y := h
    rw [exec_orchUnlock h', Bus.release_to (chooseWaiter_idxOf hu)]; rfl

/-! ### The answers of step 9 (R213 to R219) -/

theorem endWait_interrupt (hm : s.cfg.mode = .interrupt) (hn : nextStep (s.cfg.pinConflict x.bus) (some o) 9 = n) :
    endWait s t x y o = .next ((s.putBus x.bus { y with hs := .idle, cr2 := y.cr2 &&& ~~~0x0700#16 }).putTxn t
      { x with outcome := some o, step := n, wait := .fresh }) := by
  have hmask : CR2_ITERREN ||| CR2_ITEVTEN ||| CR2_ITBUFEN = 0x0700#16 := by decide
  subst hn
  simp only [endWait, Bus.disarm, State.interruptMode_iff.mpr hm, if_true, modifyBits_clear, hmask]
  rfl

theorem endWait_polled (hm : s.cfg.mode = .polled) (hn : nextStep (s.cfg.pinConflict x.bus) (some o) 9 = n) :
    endWait s t x y o = .next ((s.putBus x.bus { y with hs := .idle }).putTxn t
      { x with outcome := some o, step := n, wait := .fresh }) := by
  have hi : s.interruptMode = false := by simp [State.interruptMode, hm]
  subst hn
  simp only [endWait, Bus.disarm, hi, Bool.false_eq_true, if_false]
  rfl

theorem recheck_done (hd : y.hs = .done) : recheck s t x y = endWait s t x y .completed := if_pos hd

theorem recheck_not_done (hd : y.hs ≠ .done) : recheck s t x y = .next (s.putBus x.bus y) := if_neg hd

section Answers

variable {d : Nat}

theorem answerWait_interrupted (hi : s.intr = true) : answerWait s t x y d = recheck s t x y := if_pos hi

theorem answerWait_woken (hi : s.intr = false) (hs : 0 < y.sig) :
    answerWait s t x y d = recheck s t x { y with sig := y.sig - 1 } := by
  simp only [answerWait, hi, Bool.false_eq_true, if_false, if_pos hs]

theorem answerWait_without_post (hi : s.intr = false) (hs : y.sig = 0) :
    answerWait s t x y d = if d ≤ s.now then endWait s t x y .timedOut else .next s := by
  have h0 : ¬0 < y.sig := by omega
  simp only [answerWait, hi, Bool.false_eq_true, if_false, if_neg h0]

end Answers

/-- Settles O34: the answer of the wait, then the recheck of the handshake. -/
theorem waitAnswers : Obligations.WaitAnswers := by
  intro s t x y d h hw hm
  rw [exec_orchWait_blocked h hw]
  refine ⟨fun hi hd => ?_, fun hi hs hd => ?_, fun hi hs ht => ?_, fun hi hd => ?_, fun hi hs hd => ?_, fun hi hs ht => ?_⟩
  · rw [answerWait_interrupted hi, recheck_done hd, endWait_interrupt hm rfl]; rfl
  · rw [answerWait_woken hi hs, recheck_done (y := { y with sig := y.sig - 1 }) hd, endWait_interrupt hm rfl]; rfl
  · rw [answerWait_without_post hi hs, if_pos ht, endWait_interrupt hm rfl]; rfl
  · rw [answerWait_interrupted hi, recheck_not_done hd]
  · rw [answerWait_woken hi hs, recheck_not_done (y := { y with sig := y.sig - 1 }) hd]
  · rw [answerWait_without_post hi hs, if_neg (Nat.not_le.mpr ht)]

/-- Settles O35: Done is tested before the time-out. -/
theorem pollAnswers : Obligations.PollAnswers := by
  intro s t x y t0 h hw hm
  rw [exec_orchWait_polling h hw]
  refine ⟨fun hd => ?_, fun hd ht => ?_, fun hd ht => ?_⟩
  · rw [pollAgain, if_pos hd, endWait_polled hm rfl]; rfl
  · rw [pollAgain, if_neg hd, if_pos ht, endWait_polled hm rfl]; rfl
  · rw [pollAgain, if_neg hd, if_neg (Nat.not_le.mpr ht)]; rfl

/-! ### The classification (R221, R222) -/

/-- Settles O37: the three steps alone, then one after the other. -/
theorem classifyResult : Obligations.ClassifyResult := by
  intro s t x y h
  refine ⟨exec_orchMask h, exec_orchClassify h, exec_orchBusyCheck h, _, _, exec_orchMask h,
    exec_orchClassify (h.putTxn rfl), ?_⟩
  refine (exec_orchBusyCheck (InTxn.putTxn (InTxn.putTxn h (by rfl)) (by rfl))).trans ?_
  rw [State.putTxn_putTxn, State.putTxn_putTxn]
  rfl

/-! ### CLK (40_clock_config.md R110, R140 to R151) -/

section Clk

variable {mode : Nat → Nat → Timing} {d : Handle} {tm : Timing} {drop : Bool}

theorem Timing.ccr_div (hb : tm.modeBits &&& 0x0FFF#16 = 0#16) (hd : tm.div ≤ 4095) :
    (tm.ccr &&& 0x0FFF#16).toNat = tm.div := by
  have hmask : (0x0FFF#16 : Half).toNat = 2 ^ 12 - 1 := by decide
  rw [Timing.ccr, BitVec.and_or_distrib_right, hb, BitVec.zero_or, BitVec.toNat_and, BitVec.toNat_ofNat, hmask,
    Nat.and_two_pow_sub_one_eq_mod]
  omega

theorem clkCr1_idem (v : Half) (drop : Bool) : clkCr1 (clkCr1 v drop) drop = clkCr1 v drop := by
  cases drop
  · simp [clkCr1_eq]
  · simp [clkCr1_eq, BitVec.and_assoc]

/-- The same timing written again leaves the registers as they are (R149). -/
theorem Bus.programClock_programClock : (y.programClock tm drop).programClock tm drop = y.programClock tm drop := by
  simp only [Bus.programClock, clkCr1_idem]

theorem runClk_of_contract (h : InTxn s t x y) (hd : s.handle? x.handle = some d)
    (hc : inContract d.frequency (mode s.cfg.pclk d.frequency) = true) :
    runClk mode s = .next (s.putBus x.bus (y.programClock (mode s.cfg.pclk d.frequency) s.dropAck)) := by
  refine (withTxn_of_inTxn h _).trans ?_
  simp only [hd, hc, if_true]

theorem runClk_out_of_contract (h : InTxn s t x y) (hd : s.handle? x.handle = some d)
    (hc : ¬inContract d.frequency (mode s.cfg.pclk d.frequency) = true) : runClk mode s = .fault .clkOutOfContract := by
  refine (withTxn_of_inTxn h _).trans ?_
  simp only [hd, if_neg hc]

/-- A mode run again with the same inputs changes nothing; the divider in CCR is the one it computes. -/
theorem runClk_again (h : InTxn s t x y) (hd : s.handle? x.handle = some d)
    (hb : (mode s.cfg.pclk d.frequency).modeBits &&& 0x0FFF#16 = 0#16) {s' : State} (e : runClk mode s = .next s') :
    runClk mode s' = .next s' ∧ ∃ y', s'.bus? x.bus = some y' ∧
      (y'.ccr &&& 0x0FFF#16).toNat = (mode s.cfg.pclk d.frequency).div := by
  obtain ⟨t', x', y₀, d', h', hd', hc, rfl⟩ := runClk_next e
  obtain ⟨rfl, rfl, rfl⟩ := h'.unique h
  obtain rfl : d = d' := by simpa [hd] using hd'
  have hin : InTxn (s.putBus x.bus (y.programClock (mode s.cfg.pclk d.frequency) s.dropAck)) t x
      (y.programClock (mode s.cfg.pclk d.frequency) s.dropAck) := ⟨h.1, h.2.1, by simp⟩
  have hdiv : (mode s.cfg.pclk d.frequency).div ≤ 4095 := by
    simp only [inContract, Bool.and_eq_true, decide_eq_true_eq] at hc
    exact hc.1.2
  refine ⟨?_, _, hin.2.2, Timing.ccr_div hb hdiv⟩
  rw [runClk_of_contract hin hd hc]
  simp only [State.putBus_cfg, State.putBus_dropAck, Bus.programClock_programClock, State.putBus_putBus]

end Clk

/-- Settles O43: each mode computes its divider with its own floor and sets no bit of CCR's divider field beside it. -/
theorem clkIdempotent : Obligations.ClkIdempotent := by
  intro s s' i t x y d hi h hd e
  cases i
  case clkStd =>
    obtain ⟨hagain, y', hy', hdiv⟩ := runClk_again (mode := Timing.std) h hd (by decide : 0x0000#16 &&& 0x0FFF#16 = 0#16) e
    have hfloor : 4 ≤ (y'.ccr &&& 0x0FFF#16).toNat := hdiv ▸ le_max_left ..
    exact ⟨hagain, y', hy', by omega, fun _ => hfloor⟩
  case clkFast2 =>
    obtain ⟨hagain, y', hy', hdiv⟩ := runClk_again (mode := Timing.fast2) h hd (by decide : CCR_FS &&& 0x0FFF#16 = 0#16) e
    exact ⟨hagain, y', hy', hdiv ▸ le_max_left .., fun hne => by cases hne⟩
  case clkFast16_9 =>
    obtain ⟨hagain, y', hy', hdiv⟩ := runClk_again (mode := Timing.fast16_9) h hd
      (by decide : (CCR_FS ||| CCR_DUTY) &&& 0x0FFF#16 = 0#16) e
    exact ⟨hagain, y', hy', hdiv ▸ le_max_left .., fun hne => by cases hne⟩
  all_goals cases hi

section Select

variable {d : Handle} {f : Nat} {duty : FastDuty}

theorem selectMode_std (h0 : 0 < f) (h1 : f ≤ 100000) : selectMode f duty = some .clkStd := by
  unfold selectMode stdMaxHz
  rw [if_neg (by omega), if_pos h1]

theorem selectMode_fast (h0 : 100000 < f) (h1 : f ≤ 400000) : selectMode f duty =
    some (match duty with | .duty2 => .clkFast2 | .duty16_9 => .clkFast16_9) := by
  unfold selectMode stdMaxHz fastMaxHz
  rw [if_neg (by omega), if_neg (by omega), if_pos h1]
  cases duty <;> rfl

theorem selectMode_none (h : f = 0 ∨ 400000 < f) : selectMode f duty = none := by
  unfold selectMode stdMaxHz fastMaxHz
  obtain rfl | h := h
  · rfl
  · rw [if_neg (by omega), if_neg (by omega), if_neg (by omega)]

/-- Step 7 runs the selected mode and goes on to step 8 (R208). -/
theorem exec_orchClk (h : InTxn s t x y) (hd : s.handle? x.handle = some d) (hi : formatOf i = .k)
    (hsel : selectMode d.frequency s.cfg.fastDuty = some i) :
    exec .orchClk s = andThen (exec i s) fun u => .next (u.putTxn t { x with step := 8 }) := by
  have hclk : clk s = exec i s := by
    refine (withTxn_of_inTxn h _).trans ?_
    simp only [hd, hsel]
    cases i
    case clkStd | clkFast2 | clkFast16_9 => rfl
    all_goals cases hi
  refine (withTxn_of_inTxn h _).trans ?_
  rw [hclk]
  rfl

theorem exec_orchClk_unselected (h : InTxn s t x y) (hd : s.handle? x.handle = some d)
    (hsel : selectMode d.frequency s.cfg.fastDuty = none) : exec .orchClk s = .fault .clkOutOfContract := by
  have hclk : clk s = .fault .clkOutOfContract := by
    refine (withTxn_of_inTxn h _).trans ?_
    simp only [hd, hsel]
  refine (withTxn_of_inTxn h _).trans ?_
  rw [hclk]
  rfl

end Select

/-- Settles O10: the frequency and `FAST_DUTY` select the mode. -/
theorem clkStepRunsTheMode : Obligations.ClkStepRunsTheMode := by
  intro s t x y d i u h hd hmode e
  have hsel : formatOf i = .k ∧ selectMode d.frequency s.cfg.fastDuty = some i := by
    obtain ⟨rfl, h0, h1⟩ | ⟨rfl, h0, h1, hduty⟩ | ⟨rfl, h0, h1, hduty⟩ := hmode
    · exact ⟨rfl, selectMode_std h0 h1⟩
    · exact ⟨rfl, by rw [selectMode_fast h0 h1, hduty]⟩
    · exact ⟨rfl, by rw [selectMode_fast h0 h1, hduty]⟩
  rw [exec_orchClk h hd hsel.1 hsel.2, e]
  rfl

section Contract

variable {tm : Timing} {f : Nat}

theorem inContract_iff : inContract f tm = true ↔ 0 < f ∧ f ≤ 400000 ∧ tm.div ≤ 4095 ∧ tm.trise ≤ 63 := by
  simp only [inContract, Bool.and_eq_true, decide_eq_true_eq, and_assoc]
  rfl

theorem not_inContract (h : 4095 < tm.div ∨ 63 < tm.trise) : ¬inContract f tm = true := by
  rw [inContract_iff]
  omega

/-- What a mode within the contract writes (R145 to R148). -/
theorem Bus.programClock_eq (drop : Bool) : y.programClock tm drop = { y with
    ccr := tm.modeBits ||| BitVec.ofNat 16 tm.div, trise := BitVec.ofNat 16 tm.trise, oar1 := 0x4000#16
    cr1 := if drop = true then y.cr1 &&& ~~~0x0400#16 else y.cr1 } := by
  rw [Bus.programClock, clkCr1_eq]
  rfl

end Contract

/-- Settles O41: the mode's formulas within the contract, then step 7 where the mode is the selected one. -/
theorem clkModeResult : Obligations.ClkModeResult := by
  intro s t x y d i div tr bits h hd hmode hdiv htr
  have runs : ∀ mode : Nat → Nat → Timing, mode s.cfg.pclk d.frequency = ⟨div, tr, bits⟩ → 0 < d.frequency →
      d.frequency ≤ 400000 → runClk mode s = .next (s.putBus x.bus { y with
        ccr := bits ||| BitVec.ofNat 16 div, trise := BitVec.ofNat 16 tr, oar1 := 0x4000#16
        cr1 := if s.dropAck = true then y.cr1 &&& ~~~0x0400#16 else y.cr1 }) := by
    intro mode hm h0 h1
    rw [runClk_of_contract h hd (by rw [hm]; exact inContract_iff.mpr ⟨h0, h1, hdiv, htr⟩), hm, Bus.programClock_eq]
  obtain ⟨rfl, h0, h1, rfl, rfl, rfl⟩ | ⟨rfl, h0, h1, rfl, rfl, rfl⟩ | ⟨rfl, h0, h1, rfl, rfl, rfl⟩ := hmode
  · have e : exec .clkStd s = _ := runs Timing.std rfl h0 (by omega)
    exact ⟨_, rfl, e, fun _ _ => by rw [exec_orchClk h hd rfl (selectMode_std h0 h1), e]; rfl⟩
  · have e : exec .clkFast2 s = _ := runs Timing.fast2 rfl (by omega) h1
    exact ⟨_, rfl, e, fun hduty _ => by
      rw [exec_orchClk h hd rfl (by rw [selectMode_fast h0 h1, hduty rfl]), e]; rfl⟩
  · have e : exec .clkFast16_9 s = _ := runs Timing.fast16_9 rfl (by omega) h1
    exact ⟨_, rfl, e, fun _ hduty => by
      rw [exec_orchClk h hd rfl (by rw [selectMode_fast h0 h1, hduty rfl]), e]; rfl⟩

/-- Settles O42: no mode is selected, or the selected one finds its divider or its rise time too large. -/
theorem clkOutOfContract : Obligations.ClkOutOfContract := by
  intro s t x y d h hd hout
  have std : 0 < d.frequency → d.frequency ≤ 100000 →
      4095 < (Timing.std s.cfg.pclk d.frequency).div ∨ 63 < (Timing.std s.cfg.pclk d.frequency).trise →
      exec .orchClk s = .fault .clkOutOfContract := fun h0 h1 hbad => by
    have e : exec .clkStd s = .fault .clkOutOfContract := runClk_out_of_contract h hd (not_inContract hbad)
    rw [exec_orchClk h hd rfl (selectMode_std h0 h1), e]
    rfl
  have fast2 : 100000 < d.frequency → d.frequency ≤ 400000 → s.cfg.fastDuty = .duty2 →
      4095 < (Timing.fast2 s.cfg.pclk d.frequency).div ∨ 63 < (Timing.fast2 s.cfg.pclk d.frequency).trise →
      exec .orchClk s = .fault .clkOutOfContract := fun h0 h1 hduty hbad => by
    have e : exec .clkFast2 s = .fault .clkOutOfContract := runClk_out_of_contract h hd (not_inContract hbad)
    rw [exec_orchClk h hd rfl (by rw [selectMode_fast h0 h1, hduty]), e]
    rfl
  have fast16_9 : 100000 < d.frequency → d.frequency ≤ 400000 → s.cfg.fastDuty = .duty16_9 →
      4095 < (Timing.fast16_9 s.cfg.pclk d.frequency).div ∨ 63 < (Timing.fast16_9 s.cfg.pclk d.frequency).trise →
      exec .orchClk s = .fault .clkOutOfContract := fun h0 h1 hduty hbad => by
    have e : exec .clkFast16_9 s = .fault .clkOutOfContract := runClk_out_of_contract h hd (not_inContract hbad)
    rw [exec_orchClk h hd rfl (by rw [selectMode_fast h0 h1, hduty]), e]
    rfl
  obtain h0 | h0 | ⟨h0, h1, hbad⟩ | ⟨h0, h1, hbad⟩ | ⟨h0, h1, hduty, hbad⟩ | ⟨h0, h1, hduty, hbad⟩ := hout
  · exact exec_orchClk_unselected h hd (selectMode_none (.inl h0))
  · exact exec_orchClk_unselected h hd (selectMode_none (.inr h0))
  · exact std h0 h1 (hbad.imp_left fun hb => lt_of_lt_of_le hb (le_max_right ..))
  · cases hduty : s.cfg.fastDuty with
    | duty2 => exact fast2 h0 h1 hduty (.inr hbad)
    | duty16_9 => exact fast16_9 h0 h1 hduty (.inr hbad)
  · exact fast2 h0 h1 hduty (.inl (lt_of_lt_of_le hbad (le_max_right ..)))
  · exact fast16_9 h0 h1 hduty (.inl (lt_of_lt_of_le hbad (le_max_right ..)))

end Sys2Proof.Machine

/-! SUPPORT. The proofs about the host commands (43_host_operations.md): what each does for a ready caller, and where
it stops. -/

namespace Sys2Proof.Machine

variable {s : State} {t h : Nat} {d : Handle} {x : Bus}

/-! ### The handle and the operands (R253, R254) -/

theorem withHandle_dead (hd : s.handle? h = none) (k : Nat → Handle → Out) :
    withHandle s (some h) k = .refused .deadHandle := by
  simp only [withHandle, hd]

theorem bufferFault_null {n : Int} (hn : 0 < n) : bufferFault none n = some .assertion := if_pos ⟨hn, rfl⟩

theorem bufferFault_negative {buf : Option Nat} {n : Int} (hn : n < 0) : bufferFault buf n = some .badDescriptor := by
  rw [bufferFault, if_neg (by omega), if_pos hn]

theorem bufferFault_eq_none {buf : Option Nat} {n : Nat} (h : n = 0 ∨ buf ≠ none) : bufferFault buf n = none := by
  have hbuf : ¬(0 < (n : Int) ∧ buf = none) := fun ⟨hn, hb⟩ => h.elim (by omega) (· hb)
  rw [bufferFault, if_neg hbuf, if_neg (by omega)]

section WriteRead

variable {wb rb : Option Nat} {wn rn : Int}

theorem writeReadFault_null (h : (0 < wn ∧ wb = none) ∨ (rn ≠ 0 ∧ rb = none)) :
    writeReadFault wb wn rb rn = some .assertion := by
  unfold writeReadFault
  obtain h | h := h
  · rw [if_pos h]
  · rw [if_pos h, ite_self]

theorem writeReadFault_negative (hw : wn < 0) (hr : rn = 0 ∨ rb ≠ none) :
    writeReadFault wb wn rb rn = some .badDescriptor := by
  have hrb : ¬(rn ≠ 0 ∧ rb = none) := fun ⟨hn, hb⟩ => hr.elim hn (· hb)
  rw [writeReadFault, if_neg (by omega), if_neg hrb, if_pos hw]

end WriteRead

/-! ### The commands by a ready caller -/

section Ready

variable (hc : CallerReady s t)
include hc

theorem exec_openBus_ready {b : Nat} (h1 : 1 ≤ b) (hn : b ≤ s.cfg.nbus) (hp : s.cfg.pclkMinOpen ≤ s.cfg.pclk)
    (hx : s.bus? b = some x) : exec (.openBus (b : Int)) s = .next (s.openOn t b x) := by
  have hx' : s.bus? (b : Int).toNat = some x := hx
  refine (withCaller_of_ready hc _).trans ?_
  rw [if_neg (by omega), if_neg (by omega)]
  simp only [hx']
  rfl

theorem exec_openBus_invalid {b : Int} (hb : b < 1 ∨ (s.cfg.nbus : Int) < b ∨ s.cfg.pclk < s.cfg.pclkMinOpen) :
    exec (.openBus b) s = .next (s.raise t .invalidArgument) := by
  refine (withCaller_of_ready hc _).trans ?_
  by_cases hr : b < 1 ∨ (s.cfg.nbus : Int) < b
  · exact if_pos hr
  · rw [if_neg hr, if_pos (by tauto)]

variable (hd : s.handle? h = some d)
include hd

theorem exec_closeHandle_ready (hx : s.bus? d.bus = some x) :
    exec (.closeHandle (some h)) s = .next (s.closeOn t h d.bus x) := by
  refine (withCaller_of_ready hc _).trans ((withHandle_of_live hd _).trans ?_)
  simp only [hx]

theorem exec_setFreq_ready {hz : Nat} : exec (.setFreq (some h) hz) s = if hz = 0 then .next (s.raise t .invalidArgument)
    else .next ((s.putHandle h { d with frequency := storedFreq s.cfg hz }).raise t .ok) :=
  (withCaller_of_ready hc _).trans (withHandle_of_live hd _)

theorem exec_setAddr_ready {a bits : Nat} : exec (.setAddr (some h) a bits) s
    = if bits ≠ 7 ∧ bits ≠ 10 then .next (s.raise t .invalidArgument)
      else .next ((s.putHandle h { d with
        address := BitVec.ofNat 16 a, iflags := if bits = 10 then M_TEN else 0x0000#16 }).raise t .ok) :=
  (withCaller_of_ready hc _).trans (withHandle_of_live hd _)

theorem exec_write_ready {buf : Option Nat} {n : Int} : exec (.write (some h) buf n) s
    = enterExecute s t h d (.call [writeMessage d buf n]) 1 (bufferFault buf n) :=
  (withCaller_of_ready hc _).trans (withHandle_of_live hd _)

theorem exec_read_ready {buf : Option Nat} {n : Int} : exec (.read (some h) buf n) s
    = enterExecute s t h d (.call [readMessage d buf n]) 1 (bufferFault buf n) :=
  (withCaller_of_ready hc _).trans (withHandle_of_live hd _)

theorem exec_writeRead_enter {wb rb : Option Nat} {wn rn : Int} : exec (.writeRead (some h) wb wn rb rn) s
    = enterExecute s t h d (.call (writeReadMessages d wb wn rb rn)) (writeReadMessages d wb wn rb rn).length
      (writeReadFault wb wn rb rn) :=
  (withCaller_of_ready hc _).trans (withHandle_of_live hd _)

theorem exec_transfer_ready {p : Option Nat} {n : Int} : exec (.transfer (some h) p n) s
    = enterExecute s t h d (.mem (p.getD 0)) n (transferFault p n) :=
  (withCaller_of_ready hc _).trans (withHandle_of_live hd _)

end Ready

/-! ### Power (R241, R243, R317) -/

theorem Bus.powerUp_eq (x : Bus) : x.powerUp s.interruptMode = { x with
    cr1 := 0x0001#16, cr2 := 0x0000#16, oar1 := 0x0000#16, oar2 := 0x0000#16, dr := 0x00#8
    sr1 := 0x0000#16, sr2 := 0x0000#16, ccr := 0x0000#16, trise := 0x0002#16
    irqAttached := decide (s.cfg.mode = .interrupt) || x.irqAttached
    irqEnabled := decide (s.cfg.mode = .interrupt) || x.irqEnabled } := by
  have hpe : modifyBits 0x0000#16 0x0000#16 CR1_PE = 0x0001#16 := by decide
  simp only [Bus.powerUp, Bus.resetRegs, Bus.modifyReg_cr1, State.interruptMode, hpe]

theorem Bus.powerDown_eq (x : Bus) : x.powerDown s.interruptMode = { x with
    cr1 := 0x0000#16, cr2 := 0x0000#16, oar1 := 0x0000#16, oar2 := 0x0000#16, dr := 0x00#8
    sr1 := 0x0000#16, sr2 := 0x0000#16, ccr := 0x0000#16, trise := 0x0002#16
    irqAttached := if s.cfg.mode = .interrupt then false else x.irqAttached
    irqEnabled := if s.cfg.mode = .interrupt then false else x.irqEnabled } := by
  by_cases hm : s.cfg.mode = .interrupt <;> simp [Bus.powerDown, Bus.resetRegs, State.interruptMode, hm]

/-- A code from 8 on is reserved (R106, R112). -/
theorem operandCount_reserved {n : Nat} (hn : 8 ≤ n) : operandCount n = none := by
  obtain ⟨m, rfl⟩ := Nat.exists_eq_add_of_le' hn
  rfl

/-! ### The statements -/

/-- Settles O11: the first opening powers the bus up; the handle is new. -/
theorem openResult : Obligations.OpenResult := by
  intro s t b x hc h1 hn hp hx
  rw [exec_openBus_ready hc h1 hn hp hx, State.openOn]
  by_cases h0 : x.refs = 0
  · simp only [h0, if_true, Bus.powerUp_eq]
    rfl
  · simp only [if_neg h0]; rfl

/-- Settles O12: the last closing powers the bus down; the handle is gone. -/
theorem closeResult : Obligations.CloseResult := by
  intro s t h d x hc hd hx h1
  rw [exec_closeHandle_ready hc hd hx, State.closeOn]
  by_cases hr : x.refs = 1
  · simp only [hr, Nat.sub_self, if_true, Bus.powerDown_eq]
    rfl
  · have h0 : ¬x.refs - 1 = 0 := by omega
    simp only [if_neg hr, if_neg h0]
    rfl

/-- Settles O13: the handle with its frequency, or with its address and mode. -/
theorem configureResult : Obligations.ConfigureResult := by
  intro s t h d hc hd
  refine ⟨fun hz hpos => ?_, fun a bits hb => ?_⟩
  · rw [exec_setFreq_ready hc hd, if_neg (by omega)]; rfl
  · rw [exec_setAddr_ready hc hd, if_neg (by omega)]; rfl

/-- Settles O14: each cause is tested before anything is written. -/
theorem invalidArgumentChangesNothing : Obligations.InvalidArgumentChangesNothing := by
  refine ⟨fun s t bus hc hb => exec_openBus_invalid hc hb, fun s t h d hc hd => ?_, fun s t h d a bits hc hd h7 h10 => ?_,
    fun s t c bs r hs hn hcode => ?_⟩
  · rw [exec_setFreq_ready hc hd, if_pos rfl]; rfl
  · rw [exec_setAddr_ready hc hd, if_pos ⟨h7, h10⟩]; rfl
  · have hdec : decode (.command (c :: bs)) = .error .reservedCode := by
      simp only [decode, decodeCommand, operandCount_reserved hcode]
    rw [step_of_plan hs]
    simp only [plan, planIssue, show (State.thread { s with sched := r } t).txn = none from hn, hdec]
    rfl

/-- Settles O15: the operands meet R253, so the transaction is entered on the message list. -/
theorem singleTransactionResult : Obligations.SingleTransactionResult := by
  intro s t h d hc hd
  refine ⟨fun buf n hn => ⟨?_, ?_⟩, fun p n hn => ?_⟩
  · rw [exec_write_ready hc hd, bufferFault_eq_none hn]; rfl
  · rw [exec_read_ready hc hd, bufferFault_eq_none hn]; rfl
  · have hf : transferFault (some p) n = none := by simp [transferFault, hn]
    rw [exec_transfer_ready hc hd, hf]; rfl

/-- Settles O17: the handle is tested first, then the buffers and counts, then the lengths. -/
theorem misuseStops : Obligations.MisuseStops := by
  intro s t hc
  have null : ∀ k : Nat → Nat → Handle → Out, (withCaller s fun t => withHandle s none (k t)) = .fault .assertion :=
    fun k => withCaller_of_ready hc _
  have dead : ∀ {h} (k : Nat → Nat → Handle → Out), s.handle? h = none →
      (withCaller s fun t => withHandle s (some h) (k t)) = .refused .deadHandle :=
    fun k hd => (withCaller_of_ready hc _).trans (withHandle_dead hd _)
  refine ⟨fun buf n p wb wn rb rn hz a bits => ⟨null _, null _, null _, null _, null _, null _, null _⟩,
    fun h buf n p wb wn rb rn hz a bits hd =>
      ⟨dead _ hd, dead _ hd, dead _ hd, dead _ hd, dead _ hd, dead _ hd, dead _ hd⟩,
    fun h d hd => ⟨fun p n hp => ?_, fun n hn => ⟨?_, ?_⟩, fun buf n hn => ⟨?_, ?_⟩, fun wb wn rb rn hb => ?_,
      fun wb wn rb rn hw hr => ?_⟩⟩
  · rw [exec_transfer_ready hc hd, show transferFault p n = some .assertion from if_pos hp]; rfl
  · rw [exec_write_ready hc hd, bufferFault_null hn]; rfl
  · rw [exec_read_ready hc hd, bufferFault_null hn]; rfl
  · rw [exec_write_ready hc hd, bufferFault_negative hn]; rfl
  · rw [exec_read_ready hc hd, bufferFault_negative hn]; rfl
  · rw [exec_writeRead_enter hc hd, writeReadFault_null hb]; rfl
  · rw [exec_writeRead_enter hc hd, writeReadFault_negative hw hr]; rfl

end Sys2Proof.Machine
